-- ==== Sys2Proof/Word.lean ====
section
/-! DEFINITION. The widths of 00_scope.md R8: a data byte, an address, a word operand. No operation of the block
is signed. -/

namespace Sys2Proof

/-- A data byte (R8). -/
abbrev Byte := BitVec 8

/-- An address of the one 16-bit space (R8, R50). -/
abbrev Addr := BitVec 16

/-- The operand of `WRITE_WORD` (R8). -/
abbrev Word := BitVec 16

end Sys2Proof
end

