-- ==== Sys2Proof/Config.lean ====
section
/-! DEFINITION. What is fixed for one block: the constants the source fixes, the parameters of 00_scope.md R7, and the
collaborators' functions and the boot image, which are free constants without a body. -/

namespace Sys2Proof

/-! ### Constants the source fixes (R7, R53) -/

/-- `AS_SIZE`. -/
abbrev asSize : Nat := 0x10000
/-- `BOOT_SIZE`: the overlay window is the addresses below it (R55). -/
abbrev bootSize : Nat := 0x100
/-- `DMA_LEN`. -/
abbrev dmaLen : Nat := 160
/-- `REG_JOYP`. -/
abbrev regJoyp : Addr := 0xFF00#16
/-- `REG_DMA`. -/
abbrev regDma : Addr := 0xFF46#16
/-- `REG_BOOT`. -/
abbrev regBoot : Addr := 0xFF50#16
/-- `BOOT_DISABLE_VALUE`. -/
abbrev bootDisableValue : Byte := 0x01#8
/-- `JOYP_FORCE_MASK`. -/
abbrev joypForceMask : Byte := 0x0F#8
/-- `ROM_SIZE_OFFSET`. -/
abbrev romSizeOffset : Nat := 0x148
/-- `ROM_SIZE_MAX`. -/
abbrev romSizeMax : Nat := 8
/-- `ROM_UNIT`. -/
abbrev romUnit : Nat := 0x8000

/-! ### Parameters (R7, R51, R54) -/

/-- An inclusive address range `lo..hi` (90_conflicts.md C1). -/
structure Range where
  lo : Addr
  hi : Addr
  deriving DecidableEq, Repr

/-- `a ∈ r`. -/
def Range.contains (r : Range) (a : Addr) : Bool := r.lo ≤ a && a ≤ r.hi

/-- The implementation parameters of R7 that are numbers: `MAP`, `TIMER_LO`, `VRAM_SIZE`, `OAM_SIZE`, `DMA_CYCLES`,
`BLANK_BOOT_MODE`. A block carries one such record and no step changes it (log entry 1). -/
structure Params where
  rom0 : Range
  romx : Range
  eram : Range
  vram : Range
  oam : Range
  timerLo : Addr
  vramSize : Nat
  oamSize : Nat
  dmaCycles : Nat
  blankBootMode : Bool
  deriving DecidableEq, Repr

/-- The timer window `TIMER_LO..TIMER_LO+3` (R54). -/
def Params.timer (c : Params) : Range := ⟨c.timerLo, c.timerLo + 3⟩

/-- `BLANK_BOOT_MODE`, OPEN (92_eei_decisions.md D6): a free constant. Log entry 2. -/
opaque Config.blankBootMode : Bool

/-- `BOOT`, OPEN (R21, D28): a free constant, one content for every block, written by nothing. Log entry 2. -/
opaque Config.boot : BitVec 8 → Byte

/-- The defaults of R7, R51 and R54. PRESUMED by the spec itself "from general knowledge, not in source"
(93_implementation_defined.md K1 to K4). Log entry 2. -/
def Params.dmg : Params where
  rom0 := ⟨0x0000#16, 0x3FFF#16⟩
  romx := ⟨0x4000#16, 0x7FFF#16⟩
  eram := ⟨0xA000#16, 0xBFFF#16⟩
  vram := ⟨0x8000#16, 0x9FFF#16⟩
  oam := ⟨0xFE00#16, 0xFE9F#16⟩
  timerLo := 0xFF04#16
  vramSize := 0x2000
  oamSize := 0xA0
  dmaCycles := 160
  blankBootMode := Config.blankBootMode

/-! ### Collaborators (R27, R28) -/

/-- What a failing `CartModel.make` reports: the collaborator's own error, any value (R28, D20). -/
abbrev CartError := Nat

/-- `CartState` (R28) as plain data: the three byte sequences `CartRom0(c)`, `CartRomX(c)` and `CartRam(c)`, and
whatever else the cartridge holds inside. Nothing relates them to each other or to `Config.cartRead` (D20).
Log entry 6. -/
structure Cart where
  rom0 : List Byte
  romx : List Byte
  ram : List Byte
  inner : List Byte
  deriving DecidableEq, Repr, Inhabited

/-- `CartModel.make` (R28, R104): a free constant. Log entry 6. -/
opaque Config.cartMake : List Byte → Except CartError Cart

/-- `CartRead(c, a)` (R28), pure: a free constant. Log entry 6. -/
opaque Config.cartRead : Cart → Addr → Byte

/-- `CartWrite(c, a, v)` (R28): a free constant. Log entry 6. -/
opaque Config.cartWrite : Cart → Addr → Byte → Cart

/-- `TimerState` (R27) as plain data: the bus never looks into it. Log entry 7. -/
abbrev TimerState := List Byte

/-- `TimerWrite(t, a, v)` (R27): a free constant. Log entry 7. -/
opaque Config.timerWrite : TimerState → Addr → Byte → TimerState

end Sys2Proof
end

