-- ==== Sys2Proof/Syntax.lean ====
section
/-! DEFINITION. Requests on the upstream port (30_encoding.md R80), the decode classes (R85), the refusal reasons
(60_exceptions.md R200), and the instructions: one constructor per row of spec/opcode_table.json. -/

namespace Sys2Proof

/-- What accompanies the word of a request (R80): nothing, a byte sequence, or a cycle count. -/
inductive Attachment where
  | none
  | payload (bytes : List Byte)
  | count (n : Nat)
  deriving DecidableEq, Repr

/-- A request: the word `W` and its attachment (R80). -/
structure Request where
  word : BitVec 36
  att : Attachment
  deriving DecidableEq, Repr

/-- The reasons of a `REFUSED` response (R200). -/
inductive Reason where
  | unknownOp
  | badOperand
  | notConstructed
  | alreadyConstructed
  deriving DecidableEq, Repr

/-- The rows of format `RD` (R85); R56's class CART is the three cartridge rows. -/
inductive ReadClass where
  | boot
  | cartRom0
  | cartRomx
  | cartEram
  | vram
  | oam
  | store
  deriving DecidableEq, Repr

/-- The rows of format `WR` (R85); R57's class CART is the three cartridge rows. -/
inductive WriteClass where
  | dmaTrigger
  | joypad
  | bootDisable
  | vram
  | oam
  | timer
  | cartRom0
  | cartRomx
  | cartEram
  | store
  deriving DecidableEq, Repr

/-- The rows of format `DMASRC` (R85), the classes of R173. -/
inductive DmaClass where
  | rom0
  | romx
  | vram
  | eram
  | oam
  | store
  deriving DecidableEq, Repr

/-- One constructor per row of spec/opcode_table.json, in its order. The first nine are the transaction kinds
(format `TXN`). Each of the others names a transaction TOGETHER WITH the decode class the table gives it: a
`READ_BYTE` of a read class, a `WRITE_BYTE` of a write class, a DMA trigger of a source class. -/
inductive Instr where
  | readByte (a : Addr)
  | writeByte (a : Addr) (v : Byte)
  | writeWord (a : Addr) (v : Word)
  | writeBlock (a : Addr) (bytes : List Byte)
  | dmaActive
  | dmaAdvance (n : Nat)
  | constructBlank
  | constructCart (image : List Byte)
  | reserved (op : BitVec 4) (addr : BitVec 16) (data : BitVec 16) (att : Attachment)
  | readByteBoot (a : Addr)
  | readByteCartRom0 (a : Addr)
  | readByteCartRomx (a : Addr)
  | readByteCartEram (a : Addr)
  | readByteVram (a : Addr)
  | readByteOam (a : Addr)
  | readByteStore (a : Addr)
  | writeByteDmaTrigger (p : Byte)
  | writeByteJoypad (v : Byte)
  | writeByteBootDisable
  | writeByteVram (a : Addr) (v : Byte)
  | writeByteOam (a : Addr) (v : Byte)
  | writeByteTimer (a : Addr) (v : Byte)
  | writeByteCartRom0 (a : Addr) (v : Byte)
  | writeByteCartRomx (a : Addr) (v : Byte)
  | writeByteCartEram (a : Addr) (v : Byte)
  | writeByteStore (a : Addr) (v : Byte)
  | dmaSrcRom0 (p : Byte)
  | dmaSrcRomx (p : Byte)
  | dmaSrcVram (p : Byte)
  | dmaSrcEram (p : Byte)
  | dmaSrcOam (p : Byte)
  | dmaSrcStore (p : Byte)
  deriving DecidableEq, Repr

end Sys2Proof
end

