-- ==== Sys2Proof/WellFormed.lean ====
section
/-! DEFINITION. Which instruction terms the opcode table can spell. A transaction kind is always well-formed: its
operands are typed (92_eei_decisions.md D27). A reserved row needs an op code 0x8..0xF (R83). A class row needs an
address or page that the row holds under the default `MAP`, which is the map of the table's rows (30_encoding.md R85). -/

namespace Sys2Proof

/-- The first address of page `p` (43_dma.md R171), as the class rows of format `DMASRC` see it. -/
def pageBase (p : Byte) : Addr := p.setWidth 16 <<< 8

/-- `a` lies in none of the ranges that `READ_BYTE` routes to a collaborator (20_memory.md R56). -/
def unroutedRead (a : Addr) : Bool :=
  !Params.dmg.rom0.contains a && !Params.dmg.romx.contains a && !Params.dmg.eram.contains a
    && !Params.dmg.vram.contains a && !Params.dmg.oam.contains a

/-- The operands an opcode-table row can hold. -/
def Instr.wellFormed : Instr → Bool
  | .readByte _ => true
  | .writeByte _ _ => true
  | .writeWord _ _ => true
  | .writeBlock _ _ => true
  | .dmaActive => true
  | .dmaAdvance _ => true
  | .constructBlank => true
  | .constructCart _ => true
  | .reserved op _ _ _ => 8#4 ≤ op
  | .readByteBoot a => a.toNat < bootSize
  | .readByteCartRom0 a => Params.dmg.rom0.contains a
  | .readByteCartRomx a => Params.dmg.romx.contains a
  | .readByteCartEram a => Params.dmg.eram.contains a
  | .readByteVram a => Params.dmg.vram.contains a
  | .readByteOam a => Params.dmg.oam.contains a
  | .readByteStore a => unroutedRead a
  | .writeByteDmaTrigger _ => true
  | .writeByteJoypad _ => true
  | .writeByteBootDisable => true
  | .writeByteVram a _ => Params.dmg.vram.contains a
  | .writeByteOam a _ => Params.dmg.oam.contains a
  | .writeByteTimer a _ => Params.dmg.timer.contains a
  | .writeByteCartRom0 a _ => Params.dmg.rom0.contains a
  | .writeByteCartRomx a _ => Params.dmg.romx.contains a
  | .writeByteCartEram a _ => Params.dmg.eram.contains a
  | .writeByteStore a _ =>
    a != regDma && a != regJoyp && unroutedRead a && !Params.dmg.timer.contains a
  | .dmaSrcRom0 p => Params.dmg.rom0.contains (pageBase p)
  | .dmaSrcRomx p => Params.dmg.romx.contains (pageBase p)
  | .dmaSrcVram p => Params.dmg.vram.contains (pageBase p)
  | .dmaSrcEram p => Params.dmg.eram.contains (pageBase p)
  | .dmaSrcOam p => Params.dmg.oam.contains (pageBase p)
  | .dmaSrcStore p => unroutedRead (pageBase p)

end Sys2Proof
end

