-- ==== Sys2Proof/Decode.lean ====
section
/-! DEFINITION. The decoder of a request (30_encoding.md R80 to R83), the class tables of format `RD`, `WR` and `DMASRC`
(R85), the host's reading of a table word, and the encoder. The bit layout is the spec's own (92_eei_decisions.md D15). -/

namespace Sys2Proof

/-! ### The fields of `W` (R80) -/

/-- `W[35:32]`. -/
def Request.op (r : Request) : BitVec 4 := r.word.extractLsb' 32 4
/-- `W[31:16]`. -/
def Request.addr (r : Request) : BitVec 16 := r.word.extractLsb' 16 16
/-- `W[15:0]`. -/
def Request.data (r : Request) : BitVec 16 := r.word.extractLsb' 0 16

/-- `data[7:0]` (R86). -/
def lowByte (d : BitVec 16) : Byte := d.extractLsb' 0 8
/-- `data[15:8]` (R86). -/
def highByte (d : BitVec 16) : Byte := d.extractLsb' 8 8

/-- `op ‖ addr ‖ data` with its attachment (R80). -/
def Request.pack (op : BitVec 4) (addr data : BitVec 16) (att : Attachment) : Request := ⟨op ++ addr ++ data, att⟩

/-! ### Requests to transactions (R81 to R83) -/

/-- The transaction a request spells, or the reason it is refused: `UnknownOp` is the meaning of `.reserved` (R83),
`BadOperand` is decided here (R82). -/
def decode (r : Request) : Except Reason Instr :=
  let a := r.addr
  let d := r.data
  match r.op.toNat with
  | 0 => if d = 0 ∧ r.att = .none then .ok (.readByte a) else .error .badOperand
  | 1 => if highByte d = 0 ∧ r.att = .none then .ok (.writeByte a (lowByte d)) else .error .badOperand
  | 2 => if r.att = .none then .ok (.writeWord a d) else .error .badOperand
  | 3 =>
    match r.att with
    | .payload bytes => if d = 0 then .ok (.writeBlock a bytes) else .error .badOperand
    | _ => .error .badOperand
  | 4 => if a = 0 ∧ d = 0 ∧ r.att = .none then .ok .dmaActive else .error .badOperand
  | 5 =>
    match r.att with
    | .count n => if a = 0 ∧ d = 0 then .ok (.dmaAdvance n) else .error .badOperand
    | _ => .error .badOperand
  | 6 => if a = 0 ∧ d = 0 ∧ r.att = .none then .ok .constructBlank else .error .badOperand
  | 7 =>
    match r.att with
    | .payload image => if a = 0 ∧ d = 0 then .ok (.constructCart image) else .error .badOperand
    | _ => .error .badOperand
  | _ => .ok (.reserved r.op a d r.att)

/-! ### The class tables (R85) -/

/-- The extra condition of a class row. -/
inductive Cond where
  | always
  | bootMode
  | bootModeAndOne
  deriving DecidableEq, Repr

/-- Whether the condition holds: `boot` is `boot_mode`, `v` is `data[7:0]`. -/
def Cond.holds (boot : Bool) (v : Byte) : Cond → Bool
  | .always => true
  | .bootMode => boot
  | .bootModeAndOne => boot && v == bootDisableValue

/-- A row of format `RD` or `WR`, matched on `K = op ‖ addr`. -/
structure Row (κ : Type) where
  cls : κ
  pat : BitVec 20
  mask : BitVec 20
  hi : Addr := 0xFFFF#16
  cond : Cond := .always

/-- `(K & mask) = match`, the optional `addr_hi`, and the condition. -/
def Row.hits {κ : Type} (boot : Bool) (v : Byte) (k : BitVec 20) (r : Row κ) : Bool :=
  (k &&& r.mask) == r.pat && k.extractLsb' 0 16 ≤ r.hi && r.cond.holds boot v

/-- The rows of format `RD` in priority order, default `MAP`. -/
def readRows : List (Row ReadClass) :=
  [{ cls := .boot, pat := 0x00000#20, mask := 0xFFF00#20, cond := .bootMode },
   { cls := .cartRom0, pat := 0x00000#20, mask := 0xFC000#20 },
   { cls := .cartRomx, pat := 0x04000#20, mask := 0xFC000#20 },
   { cls := .cartEram, pat := 0x0A000#20, mask := 0xFE000#20 },
   { cls := .vram, pat := 0x08000#20, mask := 0xFE000#20 },
   { cls := .oam, pat := 0x0FE00#20, mask := 0xFFF00#20, hi := 0xFE9F#16 },
   { cls := .store, pat := 0x00000#20, mask := 0xF0000#20 }]

/-- The rows of format `WR` in priority order, default `MAP`. -/
def writeRows : List (Row WriteClass) :=
  [{ cls := .dmaTrigger, pat := 0x1FF46#20, mask := 0xFFFFF#20 },
   { cls := .joypad, pat := 0x1FF00#20, mask := 0xFFFFF#20 },
   { cls := .bootDisable, pat := 0x1FF50#20, mask := 0xFFFFF#20, cond := .bootModeAndOne },
   { cls := .vram, pat := 0x18000#20, mask := 0xFE000#20 },
   { cls := .oam, pat := 0x1FE00#20, mask := 0xFFF00#20, hi := 0xFE9F#16 },
   { cls := .timer, pat := 0x1FF04#20, mask := 0xFFFFC#20 },
   { cls := .cartRom0, pat := 0x10000#20, mask := 0xFC000#20 },
   { cls := .cartRomx, pat := 0x14000#20, mask := 0xFC000#20 },
   { cls := .cartEram, pat := 0x1A000#20, mask := 0xFE000#20 },
   { cls := .store, pat := 0x10000#20, mask := 0xF0000#20 }]

/-- A row of format `DMASRC`, matched on the page. -/
structure PageRow where
  cls : DmaClass
  pat : Byte
  mask : Byte

/-- The rows of format `DMASRC` in priority order, default `MAP`. -/
def pageRows : List PageRow :=
  [{ cls := .rom0, pat := 0x00#8, mask := 0xC0#8 },
   { cls := .romx, pat := 0x40#8, mask := 0xC0#8 },
   { cls := .vram, pat := 0x80#8, mask := 0xE0#8 },
   { cls := .eram, pat := 0xA0#8, mask := 0xE0#8 },
   { cls := .oam, pat := 0xFE#8, mask := 0xFF#8 },
   { cls := .store, pat := 0x00#8, mask := 0x00#8 }]

/-- The read class of key `k`: the first row that matches; the last row of the format is the fallback. -/
def decodeRead (boot : Bool) (k : BitVec 20) : ReadClass :=
  match readRows.find? (Row.hits boot 0 k) with
  | some r => r.cls
  | none => .store

/-- The write class of key `k` and value `v`. -/
def decodeWrite (boot : Bool) (k : BitVec 20) (v : Byte) : WriteClass :=
  match writeRows.find? (Row.hits boot v k) with
  | some r => r.cls
  | none => .store

/-- The DMA source class of page `p`. -/
def decodePage (p : Byte) : DmaClass :=
  match pageRows.find? (fun r => (p &&& r.mask) == r.pat) with
  | some r => r.cls
  | none => .store

/-! ### Class rows as instructions -/

/-- A `READ_BYTE a` together with its class. -/
def readInstr (a : Addr) : ReadClass → Instr
  | .boot => .readByteBoot a
  | .cartRom0 => .readByteCartRom0 a
  | .cartRomx => .readByteCartRomx a
  | .cartEram => .readByteCartEram a
  | .vram => .readByteVram a
  | .oam => .readByteOam a
  | .store => .readByteStore a

/-- A `WRITE_BYTE a, v` together with its class. -/
def writeInstr (a : Addr) (v : Byte) : WriteClass → Instr
  | .dmaTrigger => .writeByteDmaTrigger v
  | .joypad => .writeByteJoypad v
  | .bootDisable => .writeByteBootDisable
  | .vram => .writeByteVram a v
  | .oam => .writeByteOam a v
  | .timer => .writeByteTimer a v
  | .cartRom0 => .writeByteCartRom0 a v
  | .cartRomx => .writeByteCartRomx a v
  | .cartEram => .writeByteCartEram a v
  | .store => .writeByteStore a v

/-- A DMA trigger from page `p` together with its source class. -/
def pageInstr (p : Byte) : DmaClass → Instr
  | .rom0 => .dmaSrcRom0 p
  | .romx => .dmaSrcRomx p
  | .vram => .dmaSrcVram p
  | .eram => .dmaSrcEram p
  | .oam => .dmaSrcOam p
  | .store => .dmaSrcStore p

/-- The class row a byte access or a DMA trigger falls into in mode `boot`, under the table's default `MAP`; any other
instruction is its own row. -/
def classify (boot : Bool) : Instr → Instr
  | .readByte a => readInstr a (decodeRead boot (0x0#4 ++ a))
  | .writeByte a v => writeInstr a v (decodeWrite boot (0x1#4 ++ a) v)
  | .writeByteDmaTrigger p => pageInstr p (decodePage p)
  | i => i

/-- The transaction a class row belongs to. -/
def Instr.core : Instr → Instr
  | .readByteBoot a => .readByte a
  | .readByteCartRom0 a => .readByte a
  | .readByteCartRomx a => .readByte a
  | .readByteCartEram a => .readByte a
  | .readByteVram a => .readByte a
  | .readByteOam a => .readByte a
  | .readByteStore a => .readByte a
  | .writeByteDmaTrigger p => .writeByte regDma p
  | .writeByteJoypad v => .writeByte regJoyp v
  | .writeByteBootDisable => .writeByte regBoot bootDisableValue
  | .writeByteVram a v => .writeByte a v
  | .writeByteOam a v => .writeByte a v
  | .writeByteTimer a v => .writeByte a v
  | .writeByteCartRom0 a v => .writeByte a v
  | .writeByteCartRomx a v => .writeByte a v
  | .writeByteCartEram a v => .writeByte a v
  | .writeByteStore a v => .writeByte a v
  | .dmaSrcRom0 p => .writeByte regDma p
  | .dmaSrcRomx p => .writeByte regDma p
  | .dmaSrcVram p => .writeByte regDma p
  | .dmaSrcEram p => .writeByte regDma p
  | .dmaSrcOam p => .writeByte regDma p
  | .dmaSrcStore p => .writeByte regDma p
  | .readByte a => .readByte a
  | .writeByte a v => .writeByte a v
  | .writeWord a v => .writeWord a v
  | .writeBlock a bytes => .writeBlock a bytes
  | .dmaActive => .dmaActive
  | .dmaAdvance n => .dmaAdvance n
  | .constructBlank => .constructBlank
  | .constructCart image => .constructCart image
  | .reserved op addr data att => .reserved op addr data att

/-! ### The encoder (R81, R89) -/

/-- `zext_16(v)`. -/
def zext16 (v : Byte) : BitVec 16 := v.setWidth 16

/-- The request of a transaction kind, by its row of R81; a class row gives the request of its transaction. -/
def encode (i : Instr) : Request :=
  match i.core with
  | .readByte a => Request.pack 0x0 a 0 .none
  | .writeByte a v => Request.pack 0x1 a (zext16 v) .none
  | .writeWord a v => Request.pack 0x2 a v .none
  | .writeBlock a bytes => Request.pack 0x3 a 0 (.payload bytes)
  | .dmaActive => Request.pack 0x4 0 0 .none
  | .dmaAdvance n => Request.pack 0x5 0 0 (.count n)
  | .constructBlank => Request.pack 0x6 0 0 .none
  | .constructCart image => Request.pack 0x7 0 0 (.payload image)
  | .reserved op addr data att => Request.pack op addr data att
  | _ => Request.pack 0xF 0 0 .none

/-! ### The host's table words -/

/-- The attachment a table word stands for: the one its op code asks for (R82), with nothing in it. -/
def emptyAttachment (op : BitVec 4) : Attachment :=
  match op.toNat with
  | 3 => .payload []
  | 5 => .count 0
  | 7 => .payload []
  | _ => .none

/-- The class row of a key `K`, every row's own condition taken to hold: `boot_mode` true, and at `REG_BOOT` the value
0x01. Log entry 10. -/
def decodeKey (k : BitVec 20) : Option Instr :=
  let a := k.extractLsb' 0 16
  match (k.extractLsb' 16 4).toNat with
  | 0 => some (classify true (.readByte a))
  | 1 => some (classify true (.writeByte a (if a = regBoot then bootDisableValue else 0)))
  | _ => none

/-- The instruction of a table word. The table numbers three kinds of words (R85): a page (format `DMASRC`, 8 bits), a
key `K` (formats `RD` and `WR`, 20 bits, three bytes), and a request word `W` (format `TXN`, 36 bits, five bytes).
Log entry 10. -/
def decodeTableWord (nbits w : Nat) : Option Instr :=
  if nbits ≤ 8 then
    if w < 2 ^ 8 then some (classify true (.writeByteDmaTrigger (BitVec.ofNat 8 w))) else none
  else if nbits ≤ 24 then
    if w < 2 ^ 20 then decodeKey (BitVec.ofNat 20 w) else none
  else if w < 2 ^ 36 then
    let word := BitVec.ofNat 36 w
    match decode ⟨word, emptyAttachment (word.extractLsb' 32 4)⟩ with
    | .ok i => some i
    | .error _ => none
  else none

end Sys2Proof
end

