-- ==== Sys2Proof/Machine/State.lean ====
section
/-! DEFINITION. The state the spec gives the block (10_state.md), the collaborators' state it sees, the queue of inputs,
and the reasons a step can stop. -/

namespace Sys2Proof.Machine

open Sys2Proof

/-- A byte array held as its nonzero bytes: addresses strictly rising, no byte 0x00 listed. An unlisted index reads
0x00, which for `AS` is the zero-fill of construction (R20) and for the PPU's buffers is log entry 5. -/
abbrev Mem := List Host.Cell

/-- DmaState (R23). -/
structure Dma where
  active : Bool
  elapsed : Nat
  deriving DecidableEq, Repr

/-- What the fault register holds (R25): one of R200's codes, by name. -/
inductive FaultCode where
  | unsupportedRomSize
  | corruptCartridge
  | dmaAlreadyRunning
  | noCartridge
  | dmaSourceOutOfBounds
  | blockOverrun
  | cartRejected
  deriving DecidableEq, Repr

/-- What `NoCartridge` records (R200): the address of a byte access, or the page of a DMA trigger. -/
inductive CartTarget where
  | addr (a : Addr)
  | page (p : Byte)
  deriving DecidableEq, Repr

/-- `FAULT(code, info)` (R200): each fault with the information it records. -/
inductive BusFault where
  | unsupportedRomSize (ind : Byte)
  | corruptCartridge (len : Nat)
  | dmaAlreadyRunning (p : Byte)
  | noCartridge (at_ : CartTarget)
  | dmaSourceOutOfBounds (p : Byte)
  | blockOverrun (a : Addr) (n : Nat)
  | cartRejected (e : CartError)
  deriving DecidableEq, Repr

/-- The response of a transaction (R80, R200): `OK` bare, `OK` with `rdata`, `OK` with `active`, `FAULT`, `REFUSED`. -/
inductive Response where
  | ok
  | rdata (v : Byte)
  | active (b : Bool)
  | fault (f : BusFault)
  | refused (r : Reason)
  deriving DecidableEq, Repr

/-- A change a collaborator makes to its own state between two transactions (R26, D22). -/
inductive AgentEvent where
  | ppuVram (i : Nat) (v : Byte)
  | ppuOam (i : Nat) (v : Byte)
  | timer (t : TimerState)
  deriving DecidableEq, Repr

/-- What the outside world does next: the driver issues a request (R5), or a collaborator acts on its own (D22). -/
inductive Input where
  | transaction (r : Request)
  | agent (e : AgentEvent)
  deriving DecidableEq, Repr

/-- The whole state. INVENTORY.md '## State' gives each field's rule and reset value. `cfg` is constant (R7); `vram`,
`oam` and `timer` are the collaborators' (R26, R27); `inputs` is the model's own (log entry 3). -/
structure State where
  cfg : Params
  addressSpace : Mem
  bootMode : Bool
  dma : Dma
  cart : Option Cart
  fault : Option FaultCode
  constructed : Bool
  vram : Mem
  oam : Mem
  timer : TimerState
  refusalMark : Bool
  response : Option Response
  inputs : List Input
  deriving DecidableEq, Repr

/-- The block before its first construction, with the default parameters and no request waiting. -/
def State.reset : State where
  cfg := Params.dmg
  addressSpace := []
  bootMode := false
  dma := ⟨false, 0⟩
  cart := none
  fault := none
  constructed := false
  vram := []
  oam := []
  timer := []
  refusalMark := false
  response := none
  inputs := []

/-- Why the machine has no step. The faults of 60_exceptions.md R200 are NOT here: raising one is a step, which sets the
fault register (R206). -/
inductive Fault where
  /-- Raised by `step` and by every meaning while the fault register holds a code: "the faulted state has no step"
  (R206, 93 U14). Safe: the block takes no transaction there either. -/
  | stuck
  deriving DecidableEq, Repr

/-- Why the model gives no step. The refusals of 60_exceptions.md R205 are NOT here: refusing a request is a step, which
sets the sticky refusal mark. -/
inductive Refusal where
  /-- Answered by an arm of `exec` whose instruction has no meaning yet. Safe: nothing is claimed of it. -/
  | notModelled (mnemonic : String)
  /-- Answered by `step` when no input waits: a step is a transaction (R5), and there is none. Safe: the block waits. -/
  | noInput
  /-- Answered by the two constructions when the parameters fail R52: "a model checks them at configuration time and
  refuses a configuration that fails one". Safe: no such block exists. -/
  | badConfiguration
  deriving DecidableEq, Repr

/-- The outcome of a step of this machine. -/
abbrev Result := Host.Outcome State Fault Refusal

end Sys2Proof.Machine
end

