-- ==== Sys2Proof/Machine/Ops.lean ====
section
/-! DEFINITION. Named operations over memory and state: byte arrays, the three ways a transaction ends (60_exceptions.md
R200, with raising a fault as the one operation R206 describes), the guards a transaction passes first (30_encoding.md
R84), the collaborators' own changes, and the check of a configuration (20_memory.md R52). The block has no return from a
fault (R210). -/

namespace Sys2Proof.Machine

open Sys2Proof

/-! ### Byte arrays -/

/-- Byte `a`; an index that is not listed reads 0x00. -/
def Mem.read : Mem → Nat → Byte
  | [], _ => 0
  | (k, b) :: rest, a => if k = a then b else Mem.read rest a

/-- Lists `v` at `a`, keeping the addresses rising. -/
def Mem.insert : Mem → Nat → Byte → Mem
  | [], a, v => [(a, v)]
  | (k, b) :: rest, a, v =>
    if a < k then (a, v) :: (k, b) :: rest
    else if a = k then (a, v) :: rest
    else (k, b) :: Mem.insert rest a v

/-- `m[a] <- v`; writing 0x00 takes the entry away. -/
def Mem.write (m : Mem) (a : Nat) (v : Byte) : Mem :=
  if v = 0 then m.filter (fun c => c.1 != a) else Mem.insert m a v

/-- `m[a + i] <- bytes[i]` for every index of `bytes`, in order. -/
def Mem.writeList : Mem → Nat → List Byte → Mem
  | m, _, [] => m
  | m, a, b :: rest => Mem.writeList (Mem.write m a b) (a + 1) rest

/-- `m[off .. off+n)`. -/
def Mem.slice (m : Mem) (off n : Nat) : List Byte := (List.range n).map fun i => Mem.read m (off + i)

/-- Addresses strictly rising from `lo`, below `size`, no byte 0x00 listed. -/
def Mem.wfFrom (size : Nat) : Nat → Mem → Bool
  | _, [] => true
  | lo, (k, b) :: rest => lo ≤ k && k < size && b != 0 && Mem.wfFrom size (k + 1) rest

/-- The canonical form of an array of `size` bytes. -/
def Mem.wf (size : Nat) (m : Mem) : Bool := Mem.wfFrom size 0 m

/-! ### How a transaction ends (R200) -/

/-- `return`: the transaction ends `OK` with response `r`. -/
def respond (r : Response) (s : State) : State := { s with response := some r }

/-- The code of a fault (R200). -/
def BusFault.code : BusFault → FaultCode
  | .unsupportedRomSize _ => .unsupportedRomSize
  | .corruptCartridge _ => .corruptCartridge
  | .dmaAlreadyRunning _ => .dmaAlreadyRunning
  | .noCartridge _ => .noCartridge
  | .dmaSourceOutOfBounds _ => .dmaSourceOutOfBounds
  | .blockOverrun _ _ => .blockOverrun
  | .cartRejected _ => .cartRejected

/-- The number of a fault code (R200, 92_eei_decisions.md D16). -/
def FaultCode.number : FaultCode → Byte
  | .unsupportedRomSize => 0x01
  | .corruptCartridge => 0x02
  | .dmaAlreadyRunning => 0x03
  | .noCartridge => 0x10
  | .dmaSourceOutOfBounds => 0x11
  | .blockOverrun => 0x12
  | .cartRejected => 0x13

/-- `raise f` (R206, R207): the fault register takes the code, the driver gets `FAULT(code, info)`, nothing else
changes. -/
def raise (f : BusFault) (s : State) : State := { s with fault := some f.code, response := some (.fault f) }

/-- `refuse r` (R205): the sticky refusal mark is set, the driver gets `REFUSED(r)`, nothing else changes. -/
def refuse (r : Reason) (s : State) : State := { s with refusalMark := true, response := some (.refused r) }

/-! ### What every transaction passes first -/

/-- A transaction other than a construction: a faulted block takes none (R206), a block that is not constructed refuses
it (R84). -/
def transact (k : State → State) (s : State) : Result :=
  if s.fault.isSome then .fault .stuck
  else if s.constructed then .next (k s)
  else .next (refuse .notConstructed s)

/-- The constraints of R52 on `MAP` and the sizes, and `DMA_CYCLES ≥ 1` (R7). -/
def configValid (c : Params) : Bool :=
  let ranges := [c.rom0, c.romx, c.eram, c.vram, c.oam, c.timer]
  let apart (p q : Range) : Bool := p.hi < p.lo || q.hi < q.lo || p.hi < q.lo || q.hi < p.lo
  let disjoint : Bool :=
    apart c.rom0 c.romx && apart c.rom0 c.eram && apart c.rom0 c.vram && apart c.rom0 c.oam && apart c.rom0 c.timer
    && apart c.romx c.eram && apart c.romx c.vram && apart c.romx c.oam && apart c.romx c.timer
    && apart c.eram c.vram && apart c.eram c.oam && apart c.eram c.timer
    && apart c.vram c.oam && apart c.vram c.timer && apart c.oam c.timer
  disjoint
    && ranges.all (fun r => !r.contains regJoyp && !r.contains regDma && !r.contains regBoot)
    && c.vram.contains 0x8000#16
    && c.timerLo ≤ 0xFFFC#16
    && c.vram.hi.toNat + 1 - c.vram.lo.toNat ≤ c.vramSize
    && c.oam.hi.toNat + 1 - c.oam.lo.toNat ≤ c.oamSize
    && dmaLen ≤ c.oamSize
    && 1 ≤ c.dmaCycles

/-- A construction: a faulted block takes none (R206), a constructed block refuses it (R84), and a configuration that
fails R52 has no block. -/
def construct (k : State → State) (s : State) : Result :=
  if s.fault.isSome then .fault .stuck
  else if s.constructed then .next (refuse .alreadyConstructed s)
  else if configValid s.cfg then .next (k s)
  else .refused .badConfiguration

/-- A request with a reserved op code: `UnknownOp` comes before every other refusal (R83, R208). -/
def unknown (s : State) : Result :=
  if s.fault.isSome then .fault .stuck else .next (refuse .unknownOp s)

/-! ### State writes the spec names -/

/-- `AS[a] <- 0x00` for every `a`: the blank-bus initialization (R100, R105, R143). -/
def zeroFill (s : State) : State := { s with addressSpace := [] }

/-- A collaborator's own change between two transactions (R26, D22). The PPU changes bytes of its own buffers only. -/
def agentStep (e : AgentEvent) (s : State) : State :=
  match e with
  | .ppuVram i v => if i < s.cfg.vramSize then { s with vram := Mem.write s.vram i v } else s
  | .ppuOam i v => if i < s.cfg.oamSize then { s with oam := Mem.write s.oam i v } else s
  | .timer t => { s with timer := t }

end Sys2Proof.Machine
end

