-- ==== Sys2Proof/Machine/Operands.lean ====
section
/-! DEFINITION. Operand assembly (30_encoding.md R86) and the owner of an access: read routing (20_memory.md R56), write
routing (R57), and the source class of a DMA trigger (43_dma.md R173), for the block's own `MAP`. -/

namespace Sys2Proof.Machine

open Sys2Proof

/-! ### Operand assembly (R86) -/

/-- `src = zext_16(p) << 8` (R170, R171). -/
def dmaSource (p : Byte) : Addr := zext16 p <<< 8

/-- A joypad write's value, `v | 0x0F` (R142). -/
def joypadValue (v : Byte) : Byte := v ||| joypForceMask

/-- `0x8000 << ind` bytes (R103). -/
def romSize (ind : Byte) : Nat := romUnit <<< ind.toNat

/-- `(a + 1) mod 0x10000`, the second address of a `WRITE_WORD` (R149). -/
def nextAddr (a : Addr) : Addr := a + 1

/-- `a - lo`, the offset of an address in the range `r` (R26, R174). -/
def offsetIn (r : Range) (a : Addr) : Nat := a.toNat - r.lo.toNat

/-! ### Routing -/

/-- R56's `read_class`, with the three CART arms told apart. -/
def readClass (c : Params) (boot : Bool) (a : Addr) : ReadClass :=
  if boot && a.toNat < bootSize then .boot
  else if c.rom0.contains a then .cartRom0
  else if c.romx.contains a then .cartRomx
  else if c.eram.contains a then .cartEram
  else if c.vram.contains a then .vram
  else if c.oam.contains a then .oam
  else .store

/-- Steps 4 and 5 of the write path (R140): the range table, then storage. -/
def rangeClass (c : Params) (a : Addr) : WriteClass :=
  if c.vram.contains a then .vram
  else if c.oam.contains a then .oam
  else if c.timer.contains a then .timer
  else if c.rom0.contains a then .cartRom0
  else if c.romx.contains a then .cartRomx
  else if c.eram.contains a then .cartEram
  else .store

/-- R57's `write_class`, with the three CART arms told apart. -/
def writeClass (c : Params) (boot : Bool) (a : Addr) (v : Byte) : WriteClass :=
  if a = regDma then .dmaTrigger
  else if a = regJoyp then .joypad
  else if boot && a == regBoot && v == bootDisableValue then .bootDisable
  else rangeClass c a

/-- R173's `dma_class`. -/
def dmaClass (c : Params) (src : Addr) : DmaClass :=
  if c.rom0.contains src then .rom0
  else if c.romx.contains src then .romx
  else if c.vram.contains src then .vram
  else if c.eram.contains src then .eram
  else if c.oam.contains src then .oam
  else .store

end Sys2Proof.Machine
end

