-- ==== Sys2Proof/Machine/Flags.lean ====
section
/-! DEFINITION. The block's two state bits, `boot_mode` and `dma.active` (40_construction.md: "Flags" here means these
two; the block has no condition codes), and the elapsed-cycle counter that drops the second. -/

namespace Sys2Proof.Machine

open Sys2Proof

/-- The DMA engine at rest with its counter at zero (R23, R100, R105). -/
def dmaIdle : Dma := ⟨false, 0⟩

/-- The DMA engine right after a trigger (R172). -/
def dmaStarted : Dma := ⟨true, 0⟩

/-- One `DMA_ADVANCE n` (R182, R183): an idle engine counts nothing; an active one adds `n` and goes idle once the count
reaches `DMA_CYCLES`. -/
def dmaElapse (cycles n : Nat) (d : Dma) : Dma :=
  if d.active then ⟨decide (d.elapsed + n < cycles), d.elapsed + n⟩ else d

/-- The boot-disable latch (R143): the zero-fill, then `boot_mode` false, for ever. -/
def latch (s : State) : State := { zeroFill s with bootMode := false }

end Sys2Proof.Machine
end

