-- ==== Sys2Proof/Machine/Construct.lean ====
section
/-! DEFINITION. Construction, the block's reset (40_construction.md R100 to R107, 70_reset_and_hazards.md R230). -/

namespace Sys2Proof.Machine

open Sys2Proof

/-- The state both constructions leave, but for the mode and the cartridge (R100, R105). -/
def constructed (boot : Bool) (cart : Option Cart) (s : State) : State :=
  respond .ok
    { zeroFill s with bootMode := boot, dma := dmaIdle, cart := cart, fault := none, constructed := true }

/-- R100's body. -/
def buildBlank (s : State) : State := constructed s.cfg.blankBootMode none s

/-- R101's body: the checks in the order of R208, then the collaborator's verdict on `image[0 .. size)` (R104, R107). -/
def buildCart (image : List Byte) (s : State) : State :=
  if image.length < romSizeOffset + 1 then raise (.corruptCartridge image.length) s
  else
    let ind := image.getD romSizeOffset 0
    if romSizeMax < ind.toNat then raise (.unsupportedRomSize ind) s
    else if image.length < romSize ind then raise (.corruptCartridge image.length) s
    else
      match Config.cartMake (image.take (romSize ind)) with
      | .error e => raise (.cartRejected e) s
      | .ok c => constructed true (some c) s

/-- `CONSTRUCT_BLANK` (R100). -/
def execConstructBlank (s : State) : Result := construct buildBlank s

/-- `CONSTRUCT_CART` (R101). -/
def execConstructCart (image : List Byte) (s : State) : Result := construct (buildCart image) s

/-- A reserved op code, whatever its other fields (R83). -/
def execReserved (_op : BitVec 4) (_addr _data : BitVec 16) (_att : Attachment) (s : State) : Result := unknown s

end Sys2Proof.Machine
end

