-- ==== Sys2Proof/Machine/Read.lean ====
section
/-! DEFINITION. The read path (41_read.md R120 to R126). A class row is a `READ_BYTE` that the decode found to be of that
class; where the block's mode or `MAP` puts the address in another class, the row does not apply and the access is
routed as R56 says (log entry 9). -/

namespace Sys2Proof.Machine

open Sys2Proof

/-! ### The five owners (R120) -/

/-- R121: `BOOT[a[7:0]]`. -/
def readBoot (a : Addr) (s : State) : State := respond (.rdata (Config.boot (lowByte a))) s

/-- R122: the cartridge reads the absolute address, or `NoCartridge(a)`. -/
def readCart (a : Addr) (s : State) : State :=
  match s.cart with
  | none => raise (.noCartridge (.addr a)) s
  | some c => respond (.rdata (Config.cartRead c a)) s

/-- R123: `PPU.vram[a - VRAM.lo]`. -/
def readVram (a : Addr) (s : State) : State := respond (.rdata (Mem.read s.vram (offsetIn s.cfg.vram a))) s

/-- R124: `PPU.oam[a - OAM.lo]`. -/
def readOam (a : Addr) (s : State) : State := respond (.rdata (Mem.read s.oam (offsetIn s.cfg.oam a))) s

/-- R125: `AS[a]`. -/
def readStore (a : Addr) (s : State) : State := respond (.rdata (Mem.read s.addressSpace a.toNat)) s

/-- R120: the read path. -/
def readByte (a : Addr) (s : State) : State :=
  match readClass s.cfg s.bootMode a with
  | .boot => readBoot a s
  | .cartRom0 => readCart a s
  | .cartRomx => readCart a s
  | .cartEram => readCart a s
  | .vram => readVram a s
  | .oam => readOam a s
  | .store => readStore a s

/-- The row of class `k` applied to address `a`: `body` where the address is of that class, else the read path. -/
def readAs (k : ReadClass) (body : Addr → State → State) (a : Addr) (s : State) : State :=
  if readClass s.cfg s.bootMode a = k then body a s else readByte a s

/-! ### The rows -/

/-- `READ_BYTE` (R120). -/
def execReadByte (a : Addr) (s : State) : Result := transact (readByte a) s

/-- `READ_BYTE.BOOT` (R121). -/
def execReadByteBoot (a : Addr) (s : State) : Result := transact (readAs .boot readBoot a) s

/-- `READ_BYTE.CART_ROM0` (R122). -/
def execReadByteCartRom0 (a : Addr) (s : State) : Result := transact (readAs .cartRom0 readCart a) s

/-- `READ_BYTE.CART_ROMX` (R122). -/
def execReadByteCartRomx (a : Addr) (s : State) : Result := transact (readAs .cartRomx readCart a) s

/-- `READ_BYTE.CART_ERAM` (R122). -/
def execReadByteCartEram (a : Addr) (s : State) : Result := transact (readAs .cartEram readCart a) s

/-- `READ_BYTE.VRAM` (R123). -/
def execReadByteVram (a : Addr) (s : State) : Result := transact (readAs .vram readVram a) s

/-- `READ_BYTE.OAM` (R124). -/
def execReadByteOam (a : Addr) (s : State) : Result := transact (readAs .oam readOam a) s

/-- `READ_BYTE.STORE` (R125). -/
def execReadByteStore (a : Addr) (s : State) : Result := transact (readAs .store readStore a) s

end Sys2Proof.Machine
end

