-- ==== Sys2Proof/Machine/Dma.lean ====
section
/-! DEFINITION. The DMA engine (43_dma.md R170 to R185): the trigger by source class, the advance and the status read. -/

namespace Sys2Proof.Machine

open Sys2Proof

/-! ### The copy (R170, R172, R180, R181) -/

/-- The bounds check, then the lock and the copy of `block` into `PPU.oam[0 .. 160)`: `len` is `len(buf)`, `off` the
block's offset in it. -/
def dmaCopy (len off : Nat) (block : List Byte) (p : Byte) (s : State) : State :=
  if len < off + dmaLen then raise (.dmaSourceOutOfBounds p) s
  else respond .ok { s with dma := dmaStarted, oam := Mem.writeList s.oam 0 block }

/-- A copy of `buf[off .. off+160)` where the buffer is a byte sequence of the cartridge, with `need_cart(p)` first. -/
def dmaFromCart (buf : Cart → List Byte) (off : Nat) (p : Byte) (s : State) : State :=
  match s.cart with
  | none => raise (.noCartridge (.page p)) s
  | some c => dmaCopy (buf c).length off (((buf c).drop off).take dmaLen) p s

/-- R174: `CartRom0(c)`, offset `src - ROM0.lo`. -/
def dmaRom0 (p : Byte) (s : State) : State := dmaFromCart Cart.rom0 (offsetIn s.cfg.rom0 (dmaSource p)) p s

/-- R175: `CartRomX(c)`, offset `src - ROMX.lo`. -/
def dmaRomx (p : Byte) (s : State) : State := dmaFromCart Cart.romx (offsetIn s.cfg.romx (dmaSource p)) p s

/-- R176: `PPU.vram`, offset `src - VRAM.lo`. -/
def dmaVram (p : Byte) (s : State) : State :=
  let off := offsetIn s.cfg.vram (dmaSource p)
  dmaCopy s.cfg.vramSize off (Mem.slice s.vram off dmaLen) p s

/-- R177: `CartRam(c)`, offset `src - ERAM.lo`. -/
def dmaEram (p : Byte) (s : State) : State := dmaFromCart Cart.ram (offsetIn s.cfg.eram (dmaSource p)) p s

/-- R178: a null transfer that takes the lock (R172). -/
def dmaOam (_p : Byte) (s : State) : State := respond .ok { s with dma := dmaStarted }

/-- R179: `AS`, offset `src`. -/
def dmaStore (p : Byte) (s : State) : State :=
  dmaCopy asSize (dmaSource p).toNat (Mem.slice s.addressSpace (dmaSource p).toNat dmaLen) p s

/-- R170: the trigger. -/
def dmaTrigger (p : Byte) (s : State) : State :=
  if s.dma.active then raise (.dmaAlreadyRunning p) s
  else
    match dmaClass s.cfg (dmaSource p) with
    | .rom0 => dmaRom0 p s
    | .romx => dmaRomx p s
    | .vram => dmaVram p s
    | .eram => dmaEram p s
    | .oam => dmaOam p s
    | .store => dmaStore p s

/-- The row of source class `k` applied to page `p`: with the engine idle, `body` where the page is of that class; else
the trigger as R170 has it (log entry 9). -/
def triggerAs (k : DmaClass) (body : Byte → State → State) (p : Byte) (s : State) : State :=
  if s.dma.active = false ∧ dmaClass s.cfg (dmaSource p) = k then body p s else dmaTrigger p s

/-! ### The rows -/

/-- `DMA_ACTIVE` (R184). -/
def execDmaActive (s : State) : Result := transact (fun s => respond (.active s.dma.active) s) s

/-- `DMA_ADVANCE n` (R182). -/
def execDmaAdvance (n : Nat) (s : State) : Result :=
  transact (fun s => respond .ok { s with dma := dmaElapse s.cfg.dmaCycles n s.dma }) s

/-- `DMA.SRC_ROM0` (R174). -/
def execDmaSrcRom0 (p : Byte) (s : State) : Result := transact (triggerAs .rom0 dmaRom0 p) s

/-- `DMA.SRC_ROMX` (R175). -/
def execDmaSrcRomx (p : Byte) (s : State) : Result := transact (triggerAs .romx dmaRomx p) s

/-- `DMA.SRC_VRAM` (R176). -/
def execDmaSrcVram (p : Byte) (s : State) : Result := transact (triggerAs .vram dmaVram p) s

/-- `DMA.SRC_ERAM` (R177). -/
def execDmaSrcEram (p : Byte) (s : State) : Result := transact (triggerAs .eram dmaEram p) s

/-- `DMA.SRC_OAM` (R178). -/
def execDmaSrcOam (p : Byte) (s : State) : Result := transact (triggerAs .oam dmaOam p) s

/-- `DMA.SRC_STORE` (R179). -/
def execDmaSrcStore (p : Byte) (s : State) : Result := transact (triggerAs .store dmaStore p) s

end Sys2Proof.Machine
end

