-- ==== Sys2Proof/Machine/Write.lean ====
section
/-! DEFINITION. The write path (42_write.md R140 to R151): `WRITE_BYTE` and its class rows, `WRITE_WORD`, `WRITE_BLOCK`. -/

namespace Sys2Proof.Machine

open Sys2Proof

/-! ### Steps 4 and 5 (R144 to R148) -/

/-- R144: `PPU.vram[a - VRAM.lo] <- v`. -/
def writeVram (a : Addr) (v : Byte) (s : State) : State :=
  respond .ok { s with vram := Mem.write s.vram (offsetIn s.cfg.vram a) v }

/-- R145: `PPU.oam[a - OAM.lo] <- v`. -/
def writeOam (a : Addr) (v : Byte) (s : State) : State :=
  respond .ok { s with oam := Mem.write s.oam (offsetIn s.cfg.oam a) v }

/-- R146: the timer takes the absolute address and the value; `AS` is not written. -/
def writeTimer (a : Addr) (v : Byte) (s : State) : State :=
  respond .ok { s with timer := Config.timerWrite s.timer a v }

/-- R147: the cartridge takes the absolute address and the value, or `NoCartridge(a)`. -/
def writeCart (a : Addr) (v : Byte) (s : State) : State :=
  match s.cart with
  | none => raise (.noCartridge (.addr a)) s
  | some c => respond .ok { s with cart := some (Config.cartWrite c a v) }

/-- R148: `AS[a] <- v`. -/
def writeStore (a : Addr) (v : Byte) (s : State) : State :=
  respond .ok { s with addressSpace := Mem.write s.addressSpace a.toNat v }

/-- Steps 4 and 5 of R140. -/
def writeRouted (a : Addr) (v : Byte) (s : State) : State :=
  match rangeClass s.cfg a with
  | .vram => writeVram a v s
  | .oam => writeOam a v s
  | .timer => writeTimer a v s
  | .cartRom0 => writeCart a v s
  | .cartRomx => writeCart a v s
  | .cartEram => writeCart a v s
  | _ => writeStore a v s

/-! ### Steps 1 to 3 (R141 to R143) -/

/-- R142: the low nibble is forced to ones, then step 4. -/
def writeJoypad (v : Byte) (s : State) : State := writeRouted regJoyp (joypadValue v) s

/-- R143: the latch; nothing is stored at 0xFF50. -/
def writeBootDisable (s : State) : State := respond .ok (latch s)

/-- R140: the write path. -/
def writeByte (a : Addr) (v : Byte) (s : State) : State :=
  match writeClass s.cfg s.bootMode a v with
  | .dmaTrigger => dmaTrigger v s
  | .joypad => writeJoypad v s
  | .bootDisable => writeBootDisable s
  | _ => writeRouted a v s

/-- R149: the low byte, and then, unless that faulted (R207), the high byte at the next address. -/
def writeWord (a : Addr) (v : Word) (s : State) : State :=
  let first := writeByte a (lowByte v) s
  if first.fault.isSome then first else writeByte (nextAddr a) (highByte v) first

/-- R150: a raw run of bytes into `AS`, past every special case, or `BlockOverrun`. -/
def writeBlock (a : Addr) (bytes : List Byte) (s : State) : State :=
  if asSize < a.toNat + bytes.length then raise (.blockOverrun a bytes.length) s
  else respond .ok { s with addressSpace := Mem.writeList s.addressSpace a.toNat bytes }

/-- The row of class `k` applied to `a` and `v`: `body` where the write is of that class, else the write path
(log entry 9). -/
def writeAs (k : WriteClass) (body : Addr → Byte → State → State) (a : Addr) (v : Byte) (s : State) : State :=
  if writeClass s.cfg s.bootMode a v = k then body a v s else writeByte a v s

/-! ### The rows -/

/-- `WRITE_BYTE` (R140). -/
def execWriteByte (a : Addr) (v : Byte) (s : State) : Result := transact (writeByte a v) s

/-- `WRITE_WORD` (R149). -/
def execWriteWord (a : Addr) (v : Word) (s : State) : Result := transact (writeWord a v) s

/-- `WRITE_BLOCK` (R150). -/
def execWriteBlock (a : Addr) (bytes : List Byte) (s : State) : Result := transact (writeBlock a bytes) s

/-- `WRITE_BYTE.DMA_TRIGGER` (R141): no further routing. -/
def execWriteByteDmaTrigger (p : Byte) (s : State) : Result := transact (dmaTrigger p) s

/-- `WRITE_BYTE.JOYPAD` (R142). -/
def execWriteByteJoypad (v : Byte) (s : State) : Result := transact (writeJoypad v) s

/-- `WRITE_BYTE.BOOT_DISABLE` (R143): the latch while `boot_mode`; once it is false the write "falls through to ordinary
storage". -/
def execWriteByteBootDisable (s : State) : Result :=
  transact (writeAs .bootDisable (fun _ _ => writeBootDisable) regBoot bootDisableValue) s

/-- `WRITE_BYTE.VRAM` (R144). -/
def execWriteByteVram (a : Addr) (v : Byte) (s : State) : Result := transact (writeAs .vram writeVram a v) s

/-- `WRITE_BYTE.OAM` (R145). -/
def execWriteByteOam (a : Addr) (v : Byte) (s : State) : Result := transact (writeAs .oam writeOam a v) s

/-- `WRITE_BYTE.TIMER` (R146). -/
def execWriteByteTimer (a : Addr) (v : Byte) (s : State) : Result := transact (writeAs .timer writeTimer a v) s

/-- `WRITE_BYTE.CART_ROM0` (R147). -/
def execWriteByteCartRom0 (a : Addr) (v : Byte) (s : State) : Result := transact (writeAs .cartRom0 writeCart a v) s

/-- `WRITE_BYTE.CART_ROMX` (R147). -/
def execWriteByteCartRomx (a : Addr) (v : Byte) (s : State) : Result := transact (writeAs .cartRomx writeCart a v) s

/-- `WRITE_BYTE.CART_ERAM` (R147). -/
def execWriteByteCartEram (a : Addr) (v : Byte) (s : State) : Result := transact (writeAs .cartEram writeCart a v) s

/-- `WRITE_BYTE.STORE` (R148). -/
def execWriteByteStore (a : Addr) (v : Byte) (s : State) : Result := transact (writeAs .store writeStore a v) s

end Sys2Proof.Machine
end

