-- ==== Sys2Proof/Machine/Dispatch.lean ====
section
/-! DEFINITION. One arm per row of spec/opcode_table.json. -/

namespace Sys2Proof.Machine

open Sys2Proof

/-- The effect of an instruction. -/
def exec (i : Instr) (s : State) : Host.Outcome State Fault Refusal :=
  match i with
  | .readByte a => Sys2Proof.Machine.execReadByte a s
  | .writeByte a v => Sys2Proof.Machine.execWriteByte a v s
  | .writeWord a v => Sys2Proof.Machine.execWriteWord a v s
  | .writeBlock a bytes => Sys2Proof.Machine.execWriteBlock a bytes s
  | .dmaActive => Sys2Proof.Machine.execDmaActive s
  | .dmaAdvance n => Sys2Proof.Machine.execDmaAdvance n s
  | .constructBlank => Sys2Proof.Machine.execConstructBlank s
  | .constructCart image => Sys2Proof.Machine.execConstructCart image s
  | .reserved op addr data att => Sys2Proof.Machine.execReserved op addr data att s
  | .readByteBoot a => Sys2Proof.Machine.execReadByteBoot a s
  | .readByteCartRom0 a => Sys2Proof.Machine.execReadByteCartRom0 a s
  | .readByteCartRomx a => Sys2Proof.Machine.execReadByteCartRomx a s
  | .readByteCartEram a => Sys2Proof.Machine.execReadByteCartEram a s
  | .readByteVram a => Sys2Proof.Machine.execReadByteVram a s
  | .readByteOam a => Sys2Proof.Machine.execReadByteOam a s
  | .readByteStore a => Sys2Proof.Machine.execReadByteStore a s
  | .writeByteDmaTrigger p => Sys2Proof.Machine.execWriteByteDmaTrigger p s
  | .writeByteJoypad v => Sys2Proof.Machine.execWriteByteJoypad v s
  | .writeByteBootDisable => Sys2Proof.Machine.execWriteByteBootDisable s
  | .writeByteVram a v => Sys2Proof.Machine.execWriteByteVram a v s
  | .writeByteOam a v => Sys2Proof.Machine.execWriteByteOam a v s
  | .writeByteTimer a v => Sys2Proof.Machine.execWriteByteTimer a v s
  | .writeByteCartRom0 a v => Sys2Proof.Machine.execWriteByteCartRom0 a v s
  | .writeByteCartRomx a v => Sys2Proof.Machine.execWriteByteCartRomx a v s
  | .writeByteCartEram a v => Sys2Proof.Machine.execWriteByteCartEram a v s
  | .writeByteStore a v => Sys2Proof.Machine.execWriteByteStore a v s
  | .dmaSrcRom0 p => Sys2Proof.Machine.execDmaSrcRom0 p s
  | .dmaSrcRomx p => Sys2Proof.Machine.execDmaSrcRomx p s
  | .dmaSrcVram p => Sys2Proof.Machine.execDmaSrcVram p s
  | .dmaSrcEram p => Sys2Proof.Machine.execDmaSrcEram p s
  | .dmaSrcOam p => Sys2Proof.Machine.execDmaSrcOam p s
  | .dmaSrcStore p => Sys2Proof.Machine.execDmaSrcStore p s

end Sys2Proof.Machine
end

