-- ==== Sys2Proof/Machine/Fetch.lean ====
section
/-! DEFINITION. Taking the next input (00_scope.md R5, R6), and placing a request for the very next step. -/

namespace Sys2Proof.Machine

open Sys2Proof

/-- What a step finds: a faulted block, nothing to do, a collaborator's own change, or a request; with the state after
the input is taken. -/
inductive Fetched where
  | stuck
  | idle
  | agent (e : AgentEvent) (s : State)
  | request (r : Request) (s : State)

/-- Takes the oldest input. A faulted block takes none (R206). -/
def fetch (s : State) : Fetched :=
  if s.fault.isSome then .stuck
  else
    match s.inputs with
    | [] => .idle
    | .agent e :: rest => .agent e { s with inputs := rest }
    | .transaction r :: rest => .request r { s with inputs := rest }

/-- Puts a request where `step` takes its next input. -/
def place (r : Request) (s : State) : State := { s with inputs := .transaction r :: s.inputs }

/-- A cartridge for a placed request: 160 zero bytes behind each of the three base pointers. Log entry 10. -/
def placedCart : Cart where
  rom0 := List.replicate dmaLen 0
  romx := List.replicate dmaLen 0
  ram := List.replicate dmaLen 0
  inner := []

/-- A block that is not constructed, put into the mode and lifecycle `CONSTRUCT_CART` leaves (R105). Log entry 10. -/
def asConstructed (s : State) : State :=
  if s.constructed then s else { s with constructed := true, bootMode := true, cart := some placedCart }

/-- What running the placed instruction takes besides the request (log entry 10): nothing for a construction or a
reserved op code (R84, R83), a constructed block for every other row, and `boot_mode` for the two rows with that
condition (R85). -/
def prepare (i : Instr) (s : State) : State :=
  match i with
  | .constructBlank => s
  | .constructCart _ => s
  | .reserved _ _ _ _ => s
  | .readByteBoot _ => { asConstructed s with bootMode := true }
  | .writeByteBootDisable => { asConstructed s with bootMode := true }
  | _ => asConstructed s

/-- The state in which the next step runs the instruction of a table word (`decodeTableWord`); a word that spells none
is placed as the request it is. -/
def placeWord (nbits w : Nat) (s : State) : State :=
  match decodeTableWord nbits w with
  | some i => place (encode i) (prepare i s)
  | none =>
    let word := BitVec.ofNat 36 w
    place ⟨word, emptyAttachment (word.extractLsb' 32 4)⟩ s

end Sys2Proof.Machine
end

