-- ==== Sys2Proof/Machine/Step.lean ====
section
/-! DEFINITION. One step: the next input taken, a request decoded and executed (00_scope.md R5, R6). -/

namespace Sys2Proof.Machine

open Sys2Proof

/-- One step. A request that is not well-formed is refused (30_encoding.md R82). -/
def step (s : State) : Host.Outcome State Fault Refusal :=
  match fetch s with
  | .stuck => .fault .stuck
  | .idle => .refused .noInput
  | .agent e s' => .next (agentStep e s')
  | .request r s' =>
    match decode r with
    | .error reason => .next (refuse reason s')
    | .ok i => exec i s'

/-- `s` with the instruction of a table word placed for the next step. -/
def State.withFetchWord (s : State) (nbits w : Nat) : State := placeWord nbits w s

end Sys2Proof.Machine
end

