-- ==== Sys2Proof/Safety.lean ====
section
/-! DEFINITION. The terms statements are written in: a block that can run, the invariant every step keeps, and what a
safe run is. -/

namespace Sys2Proof.Machine

open Sys2Proof

/-- A constructed block without a fault: every well-formed request has its effect (R84, R206). -/
abbrev Ready (s : State) : Prop := s.fault = none ∧ s.constructed = true

/-- A block that can be constructed: not yet constructed, no fault, a configuration that meets R52. -/
abbrev Constructible (s : State) : Prop :=
  s.fault = none ∧ s.constructed = false ∧ configValid s.cfg = true

/-- What every step keeps. -/
structure StateInv (s : State) : Prop where
  /-- `AS` is a canonical array of 65536 bytes (R20). -/
  asWf : Mem.wf asSize s.addressSpace = true
  /-- `PPU.vram` is a canonical array of `VRAM_SIZE` bytes (R26). -/
  vramWf : Mem.wf s.cfg.vramSize s.vram = true
  /-- `PPU.oam` is a canonical array of `OAM_SIZE` bytes (R26). -/
  oamWf : Mem.wf s.cfg.oamSize s.oam = true
  /-- Only a configuration that meets R52 is ever constructed. -/
  validCfg : s.constructed = true → configValid s.cfg = true
  /-- While Active the count is below the threshold (R182). -/
  counting : s.dma.active = true → s.dma.elapsed < s.cfg.dmaCycles
  /-- Before the first construction the block holds no cartridge and no transfer is under way (R84). -/
  unbuilt : s.constructed = false → s.cart = none ∧ s.dma = dmaIdle

/-- No fault has been raised and no request refused (R205: a refused request is no safe run). -/
abbrev Safe (s : State) : Prop := s.fault = none ∧ s.refusalMark = false

/-- R82's well-formed requests with an op code of R81's table, read off that table row by row. -/
def Fits (r : Request) : Prop :=
  (r.op = 0x0 ∧ r.data = 0 ∧ r.att = .none) ∨
  (r.op = 0x1 ∧ highByte r.data = 0 ∧ r.att = .none) ∨
  (r.op = 0x2 ∧ r.att = .none) ∨
  (r.op = 0x3 ∧ r.data = 0 ∧ ∃ bytes, r.att = .payload bytes) ∨
  (r.op = 0x4 ∧ r.addr = 0 ∧ r.data = 0 ∧ r.att = .none) ∨
  (r.op = 0x5 ∧ r.addr = 0 ∧ r.data = 0 ∧ ∃ n, r.att = .count n) ∨
  (r.op = 0x6 ∧ r.addr = 0 ∧ r.data = 0 ∧ r.att = .none) ∨
  (r.op = 0x7 ∧ r.addr = 0 ∧ r.data = 0 ∧ ∃ image, r.att = .payload image)

/-- The two constructions (R84). -/
def isConstruction : Instr → Bool
  | .constructBlank => true
  | .constructCart _ => true
  | _ => false

/-- A reserved op code (R83). -/
def isReserved : Instr → Bool
  | .reserved _ _ _ _ => true
  | _ => false

/-- A transaction, or a class row, that reads a byte (R120). -/
def isRead (i : Instr) : Bool :=
  match i.core with
  | .readByte _ => true
  | _ => false

/-- The mode in which the decode tables give a class row: `boot_mode` for the two rows with that condition (R85). -/
def rowMode : Instr → Bool
  | .readByteBoot _ => true
  | .writeByteBootDisable => true
  | _ => false

/-- Every DMA page whose source class is a cartridge buffer finds 160 bytes in it (R204: "a cartridge-backed bus whose
cartridge buffers are long enough"). -/
def BuffersLongEnough (cfg : Params) (c : Cart) : Prop :=
  ∀ p : Byte,
    (dmaClass cfg (dmaSource p) = .rom0 → offsetIn cfg.rom0 (dmaSource p) + dmaLen ≤ c.rom0.length) ∧
    (dmaClass cfg (dmaSource p) = .romx → offsetIn cfg.romx (dmaSource p) + dmaLen ≤ c.romx.length) ∧
    (dmaClass cfg (dmaSource p) = .eram → offsetIn cfg.eram (dmaSource p) + dmaLen ≤ c.ram.length) ∧
    (dmaClass cfg (dmaSource p) = .vram → offsetIn cfg.vram (dmaSource p) + dmaLen ≤ cfg.vramSize)

/-- `DMA_ADVANCE k` issued `m` times (30_encoding.md R90's `WAITDMA k` loop, less its reads). -/
def advanceTimes (k : Nat) : Nat → State → Result
  | 0, s => .next s
  | m + 1, s =>
    match exec (.dmaAdvance k) s with
    | .next t => advanceTimes k m t
    | .fault f => .fault f
    | .refused r => .refused r

end Sys2Proof.Machine
end

