-- ==== Sys2Proof/Certificates/Slice0/Obligations.lean ====
section
/-! DEFINITION. The statements for the provers. `regDma`, `regJoyp` and `regBoot` are 0xFF46, 0xFF00 and 0xFF50. A
statement of the form `∀ i ∈ [x, y], exec i s = .next t` speaks of a transaction kind and of the class row the opcode
table has for it. A next state given as `{ s with … }` says that every field not named keeps its value, memory included. -/

open Sys2Proof Sys2Proof.Machine

/-! ### The step -/

/-- O1. The step takes the oldest request from the queue and runs the transaction it decodes to (R5, R6). -/
def Obligations.StepRunsDecodedTransaction : Prop :=
  ∀ (s : State) (r : Request) (rest : List Input) (i : Instr),
    s.fault = none → s.inputs = .transaction r :: rest → decode r = .ok i →
      step s = exec i { s with inputs := rest }

/-- O2. R82: a request with an op code of the table that is not well-formed is refused with `BadOperand` and changes
nothing; a well-formed one decodes. -/
def Obligations.IllFormedRequestIsRefused : Prop :=
  (∀ (s : State) (r : Request) (rest : List Input),
    s.fault = none → s.inputs = .transaction r :: rest → r.op.toNat < 8 → ¬Fits r →
      step s = .next { s with inputs := rest, refusalMark := true, response := some (.refused .badOperand) }) ∧
  (∀ r : Request, Fits r → ∃ i, decode r = .ok i ∧ encode i = r)

/-- O3. R83: a reserved op code, whatever its other fields and whatever the block's lifecycle, is refused with
`UnknownOp` and changes nothing. -/
def Obligations.ReservedOpIsRefused : Prop :=
  ∀ (s : State) (op : BitVec 4) (addr data : BitVec 16) (att : Attachment),
    s.fault = none → 8 ≤ op.toNat →
      decode (Request.pack op addr data att) = .ok (.reserved op addr data att) ∧
      exec (.reserved op addr data att) s
        = .next { s with refusalMark := true, response := some (.refused .unknownOp) }

/-- O4. R84: before a construction every other transaction is refused with `NotConstructed`; after one, a further
construction is refused with `AlreadyConstructed`. -/
def Obligations.LifecycleRefusals : Prop :=
  (∀ (s : State) (i : Instr),
    s.fault = none → s.constructed = false → isConstruction i = false → isReserved i = false →
      exec i s = .next { s with refusalMark := true, response := some (.refused .notConstructed) }) ∧
  (∀ (s : State) (i : Instr), Ready s → isConstruction i = true →
      exec i s = .next { s with refusalMark := true, response := some (.refused .alreadyConstructed) })

/-- O5. A collaborator's own change between two transactions touches its own state only (R26, D22); log entry 8. -/
def Obligations.AgentEventTouchesItsOwnState : Prop :=
  ∀ (s : State) (e : AgentEvent) (rest : List Input), s.fault = none → s.inputs = .agent e :: rest →
    ∃ t, step s = .next t ∧
      t = { s with inputs := rest, vram := t.vram, oam := t.oam, timer := t.timer } ∧
      (∀ k, Mem.read t.vram k =
        match e with
        | .ppuVram i v => if i < s.cfg.vramSize ∧ k = i then v else Mem.read s.vram k
        | _ => Mem.read s.vram k) ∧
      (∀ k, Mem.read t.oam k =
        match e with
        | .ppuOam i v => if i < s.cfg.oamSize ∧ k = i then v else Mem.read s.oam k
        | _ => Mem.read s.oam k) ∧
      t.timer = (match e with | .timer u => u | _ => s.timer)

/-- O6. With no input waiting the block has no step (R5: the steps are the transactions); log entry 3. -/
def Obligations.NoInputNoStep : Prop :=
  ∀ s : State, s.fault = none → s.inputs = [] → step s = .refused .noInput

/-! ### Construction -/

/-- O7. R100: the blank construction. -/
def Obligations.ConstructBlankState : Prop :=
  decode ⟨0x600000000#36, .none⟩ = .ok .constructBlank ∧
  ∀ s : State, Constructible s → ∃ t, exec .constructBlank s = .next t ∧
    (∀ a, Mem.read t.addressSpace a = 0) ∧
    t = { s with addressSpace := t.addressSpace, bootMode := s.cfg.blankBootMode, dma := ⟨false, 0⟩, cart := none,
                 fault := none, constructed := true, response := some .ok }

/-- O8. R105, R107: an image that passes the checks goes, less the bytes past its size, to the collaborator, and the
block starts as R105 says with the cartridge it makes; if the collaborator rejects it, the block faults with
`CartRejected` and changes nothing else. -/
def Obligations.ConstructCartState : Prop :=
  ∀ (s : State) (image : List Byte), Constructible s →
    0x149 ≤ image.length → (image.getD 0x148 0).toNat ≤ 8 →
    0x8000 * 2 ^ (image.getD 0x148 0).toNat ≤ image.length →
    match Config.cartMake (image.take (0x8000 * 2 ^ (image.getD 0x148 0).toNat)) with
    | .ok c => ∃ t, exec (.constructCart image) s = .next t ∧
        (∀ a, Mem.read t.addressSpace a = 0) ∧
        t = { s with addressSpace := t.addressSpace, bootMode := true, dma := ⟨false, 0⟩, cart := some c,
                     fault := none, constructed := true, response := some .ok }
    | .error e => exec (.constructCart image) s
        = .next { s with fault := some .cartRejected, response := some (.fault (.cartRejected e)) }

/-- O9. R102, R106 and the length check of R104, in the order of R208: each failing image faults and changes nothing
else. -/
def Obligations.ConstructCartChecks : Prop :=
  ∀ (s : State) (image : List Byte), Constructible s →
    (image.length < 0x149 → exec (.constructCart image) s = .next
      { s with fault := some .corruptCartridge, response := some (.fault (.corruptCartridge image.length)) }) ∧
    (0x149 ≤ image.length → 8 < (image.getD 0x148 0).toNat → exec (.constructCart image) s = .next
      { s with fault := some .unsupportedRomSize,
               response := some (.fault (.unsupportedRomSize (image.getD 0x148 0))) }) ∧
    (0x149 ≤ image.length → (image.getD 0x148 0).toNat ≤ 8 →
      image.length < 0x8000 * 2 ^ (image.getD 0x148 0).toNat → exec (.constructCart image) s = .next
      { s with fault := some .corruptCartridge, response := some (.fault (.corruptCartridge image.length)) })

/-- O10. A configuration is accepted exactly when it meets the six constraints of R52 and (R7) `DMA_CYCLES` is at least
1; the default meets them all. That a construction makes the check, and is refused where it fails, is the model's choice
(log entry 15, DESIGN CHOICE). -/
def Obligations.ConfigurationConstraints : Prop :=
  (∀ c : Params, configValid c = true ↔
    (∀ a : Addr, [c.rom0, c.romx, c.eram, c.vram, c.oam, c.timer].countP (fun r => r.contains a) ≤ 1) ∧
    (∀ r ∈ [c.rom0, c.romx, c.eram, c.vram, c.oam, c.timer],
      r.contains 0xFF00#16 = false ∧ r.contains 0xFF46#16 = false ∧ r.contains 0xFF50#16 = false) ∧
    c.vram.contains 0x8000#16 = true ∧
    c.timerLo.toNat + 3 < 0x10000 ∧
    c.vram.hi.toNat + 1 - c.vram.lo.toNat ≤ c.vramSize ∧
    c.oam.hi.toNat + 1 - c.oam.lo.toNat ≤ c.oamSize ∧
    160 ≤ c.oamSize ∧
    1 ≤ c.dmaCycles) ∧
  (∀ (s : State) (i : Instr), s.fault = none → s.constructed = false → isConstruction i = true →
    configValid s.cfg = false → exec i s = .refused .badConfiguration) ∧
  configValid Params.dmg = true

/-! ### The read path -/

/-- O11. R121: in boot mode the first 256 addresses read the overlay, with or without a cartridge. -/
def Obligations.ReadBootOverlay : Prop :=
  (∀ (boot : Bool) (a : Addr), decodeRead boot (0x0#4 ++ a) = .boot ↔ boot = true ∧ a.toNat < 0x100) ∧
  ∀ (s : State) (a : Addr), Ready s → s.bootMode = true → a.toNat < 0x100 →
    ∀ i ∈ [Instr.readByte a, Instr.readByteBoot a],
      exec i s = .next { s with response := some (.rdata (Config.boot (a.extractLsb' 0 8))) }

/-- O12. R122: an address of a cartridge range reads through the cartridge's own contract, at the absolute address, or
faults with `NoCartridge(a)`. -/
def Obligations.ReadCartridge : Prop :=
  (∀ (boot : Bool) (a : Addr), ∀ k ∈ [ReadClass.cartRom0, ReadClass.cartRomx, ReadClass.cartEram],
    decodeRead boot (0x0#4 ++ a) = k ↔ readClass Params.dmg boot a = k) ∧
  ∀ (s : State) (a : Addr), Ready s →
    ∀ ki ∈ [(ReadClass.cartRom0, Instr.readByteCartRom0 a), (ReadClass.cartRomx, Instr.readByteCartRomx a),
        (ReadClass.cartEram, Instr.readByteCartEram a)],
      readClass s.cfg s.bootMode a = ki.1 → ∀ i ∈ [Instr.readByte a, ki.2],
        (∀ c, s.cart = some c → exec i s = .next { s with response := some (.rdata (Config.cartRead c a)) }) ∧
        (s.cart = none → exec i s = .next
          { s with fault := some .noCartridge, response := some (.fault (.noCartridge (.addr a))) })

/-- O13. R123, R124: an address of the VRAM or OAM range reads the PPU's buffer at its offset in the range, which is
inside the buffer under a configuration that meets R52. -/
def Obligations.ReadPpuBuffers : Prop :=
  (∀ (boot : Bool) (a : Addr), ∀ k ∈ [ReadClass.vram, ReadClass.oam],
    decodeRead boot (0x0#4 ++ a) = k ↔ readClass Params.dmg boot a = k) ∧
  ∀ (s : State) (a : Addr), Ready s →
    (readClass s.cfg s.bootMode a = .vram → ∀ i ∈ [Instr.readByte a, Instr.readByteVram a],
      exec i s = .next { s with response := some (.rdata (Mem.read s.vram (a.toNat - s.cfg.vram.lo.toNat))) }) ∧
    (readClass s.cfg s.bootMode a = .oam → ∀ i ∈ [Instr.readByte a, Instr.readByteOam a],
      exec i s = .next { s with response := some (.rdata (Mem.read s.oam (a.toNat - s.cfg.oam.lo.toNat))) }) ∧
    (configValid s.cfg = true →
      (readClass s.cfg s.bootMode a = .vram → a.toNat - s.cfg.vram.lo.toNat < s.cfg.vramSize) ∧
      (readClass s.cfg s.bootMode a = .oam → a.toNat - s.cfg.oam.lo.toNat < s.cfg.oamSize))

/-- O14. R125: every other address reads `AS[a]`; with a configuration that meets R52 and outside the overlay window,
the timer window and the three registers are such addresses. -/
def Obligations.ReadStorage : Prop :=
  (∀ (boot : Bool) (a : Addr), decodeRead boot (0x0#4 ++ a) = .store ↔ readClass Params.dmg boot a = .store) ∧
  (∀ (s : State) (a : Addr), Ready s → readClass s.cfg s.bootMode a = .store →
    ∀ i ∈ [Instr.readByte a, Instr.readByteStore a],
      exec i s = .next { s with response := some (.rdata (Mem.read s.addressSpace a.toNat)) }) ∧
  (∀ (c : Params) (boot : Bool) (a : Addr), configValid c = true → (boot = true → 0x100 ≤ a.toNat) →
    c.timer.contains a = true ∨ a = 0xFF00#16 ∨ a = 0xFF46#16 ∨ a = 0xFF50#16 → readClass c boot a = .store)

/-- O15. R65: a read changes no block state and no collaborator state; only its response, or the `NoCartridge` fault
of a block without a cartridge, is new. -/
def Obligations.ReadsChangeNothing : Prop :=
  ∀ (s t : State) (i : Instr), Ready s → isRead i = true → exec i s = .next t →
    (∃ v, t = { s with response := some (.rdata v) }) ∨
    (s.cart = none ∧ ∃ a, t =
      { s with fault := some .noCartridge, response := some (.fault (.noCartridge (.addr a))) })

/-! ### The write path -/

/-- O16. R142: a joypad write stores `v | 0x0F` at 0xFF00 and nothing else; the next read of 0xFF00 returns it. -/
def Obligations.WriteJoypad : Prop :=
  (∀ (boot : Bool) (a : Addr) (v : Byte), decodeWrite boot (0x1#4 ++ a) v = .joypad ↔ a = 0xFF00#16) ∧
  ∀ (s : State) (v : Byte), Ready s → configValid s.cfg = true →
    ∀ i ∈ [Instr.writeByte 0xFF00#16 v, Instr.writeByteJoypad v], ∃ t, exec i s = .next t ∧
      Mem.read t.addressSpace 0xFF00 = v ||| 0x0F ∧
      (∀ k, k ≠ 0xFF00 → Mem.read t.addressSpace k = Mem.read s.addressSpace k) ∧
      t = { s with addressSpace := t.addressSpace, response := some .ok } ∧
      exec (.readByte 0xFF00#16) t = .next { t with response := some (.rdata (v ||| 0x0F)) }

/-- O17. R143: 0x01 written to 0xFF50 in boot mode clears all of `AS` and leaves boot mode, touching nothing else; any
other value in boot mode, and every value after it, is stored, and the mode stays. -/
def Obligations.BootDisableLatch : Prop :=
  (∀ (boot : Bool) (a : Addr) (v : Byte),
    decodeWrite boot (0x1#4 ++ a) v = .bootDisable ↔ boot = true ∧ a = 0xFF50#16 ∧ v = 0x01) ∧
  (∀ s : State, Ready s → s.bootMode = true →
    ∀ i ∈ [Instr.writeByte 0xFF50#16 0x01, Instr.writeByteBootDisable], ∃ t, exec i s = .next t ∧
      (∀ k, Mem.read t.addressSpace k = 0) ∧
      t = { s with addressSpace := t.addressSpace, bootMode := false, response := some .ok }) ∧
  (∀ (s : State) (v : Byte), Ready s → configValid s.cfg = true → s.bootMode = false ∨ v ≠ 0x01 →
    ∃ t, exec (.writeByte 0xFF50#16 v) s = .next t ∧
      Mem.read t.addressSpace 0xFF50 = v ∧
      (∀ k, k ≠ 0xFF50 → Mem.read t.addressSpace k = Mem.read s.addressSpace k) ∧
      t = { s with addressSpace := t.addressSpace, response := some .ok }) ∧
  (∀ s : State, Ready s → s.bootMode = false →
    exec .writeByteBootDisable s = exec (.writeByte 0xFF50#16 0x01) s)

/-- O18. R144, R145: a write to the VRAM or OAM range stores into the PPU's buffer at the offset in the range, whether
or not a DMA is Active; `AS` is not written. -/
def Obligations.WritePpuBuffers : Prop :=
  (∀ (boot : Bool) (a : Addr) (v : Byte), ∀ k ∈ [WriteClass.vram, WriteClass.oam],
    decodeWrite boot (0x1#4 ++ a) v = k ↔ writeClass Params.dmg boot a v = k) ∧
  ∀ (s : State) (a : Addr) (v : Byte), Ready s →
    (writeClass s.cfg s.bootMode a v = .vram → ∀ i ∈ [Instr.writeByte a v, Instr.writeByteVram a v],
      ∃ t, exec i s = .next t ∧
        Mem.read t.vram (a.toNat - s.cfg.vram.lo.toNat) = v ∧
        (∀ k, k ≠ a.toNat - s.cfg.vram.lo.toNat → Mem.read t.vram k = Mem.read s.vram k) ∧
        t = { s with vram := t.vram, response := some .ok }) ∧
    (writeClass s.cfg s.bootMode a v = .oam → ∀ i ∈ [Instr.writeByte a v, Instr.writeByteOam a v],
      ∃ t, exec i s = .next t ∧
        Mem.read t.oam (a.toNat - s.cfg.oam.lo.toNat) = v ∧
        (∀ k, k ≠ a.toNat - s.cfg.oam.lo.toNat → Mem.read t.oam k = Mem.read s.oam k) ∧
        t = { s with oam := t.oam, response := some .ok })

/-- O19. R146: a write to the timer window goes to the timer with its absolute address; `AS` is not written, so a read
there still answers `AS[a]`. -/
def Obligations.WriteTimerWindow : Prop :=
  (∀ (boot : Bool) (a : Addr) (v : Byte),
    decodeWrite boot (0x1#4 ++ a) v = .timer ↔ writeClass Params.dmg boot a v = .timer) ∧
  ∀ (s : State) (a : Addr) (v : Byte), Ready s → writeClass s.cfg s.bootMode a v = .timer →
    ∀ i ∈ [Instr.writeByte a v, Instr.writeByteTimer a v],
      exec i s = .next { s with timer := Config.timerWrite s.timer a v, response := some .ok } ∧
      (readClass s.cfg s.bootMode a = .store → ∀ t, exec i s = .next t →
        exec (.readByte a) t = .next { t with response := some (.rdata (Mem.read s.addressSpace a.toNat)) })

/-- O20. R147: a write to a cartridge range goes to the cartridge with its absolute address, or faults with
`NoCartridge(a)`. -/
def Obligations.WriteCartridge : Prop :=
  (∀ (boot : Bool) (a : Addr) (v : Byte), ∀ k ∈ [WriteClass.cartRom0, WriteClass.cartRomx, WriteClass.cartEram],
    decodeWrite boot (0x1#4 ++ a) v = k ↔ writeClass Params.dmg boot a v = k) ∧
  ∀ (s : State) (a : Addr) (v : Byte), Ready s →
    ∀ ki ∈ [(WriteClass.cartRom0, Instr.writeByteCartRom0 a v), (WriteClass.cartRomx, Instr.writeByteCartRomx a v),
        (WriteClass.cartEram, Instr.writeByteCartEram a v)],
      writeClass s.cfg s.bootMode a v = ki.1 → ∀ i ∈ [Instr.writeByte a v, ki.2],
        (∀ c, s.cart = some c → exec i s
          = .next { s with cart := some (Config.cartWrite c a v), response := some .ok }) ∧
        (s.cart = none → exec i s = .next
          { s with fault := some .noCartridge, response := some (.fault (.noCartridge (.addr a))) })

/-- O21. R148: every other write stores into `AS[a]` and nowhere else. -/
def Obligations.WriteStorage : Prop :=
  (∀ (boot : Bool) (a : Addr) (v : Byte),
    decodeWrite boot (0x1#4 ++ a) v = .store ↔ writeClass Params.dmg boot a v = .store) ∧
  ∀ (s : State) (a : Addr) (v : Byte), Ready s → writeClass s.cfg s.bootMode a v = .store →
    ∀ i ∈ [Instr.writeByte a v, Instr.writeByteStore a v], ∃ t, exec i s = .next t ∧
      Mem.read t.addressSpace a.toNat = v ∧
      (∀ k, k ≠ a.toNat → Mem.read t.addressSpace k = Mem.read s.addressSpace k) ∧
      t = { s with addressSpace := t.addressSpace, response := some .ok }

/-- O22. R149: a word write is two byte writes with full routing, the low byte first, the second address modulo
0x10000; if the first faults, the second is not performed. -/
def Obligations.WriteWordIsTwoByteWrites : Prop :=
  (∀ (a : Addr) (v : Word), decode ⟨0x2#4 ++ a ++ v, .none⟩ = .ok (.writeWord a v)) ∧
  ∀ (s : State) (a : Addr) (v : Word), Ready s →
    ∃ t, exec (.writeByte a (v.extractLsb' 0 8)) s = .next t ∧
      (t.fault = none →
        exec (.writeWord a v) s = exec (.writeByte (BitVec.ofNat 16 (a.toNat + 1)) (v.extractLsb' 8 8)) t) ∧
      (t.fault ≠ none → exec (.writeWord a v) s = .next t)

/-- O23. R61: a word written to two storage addresses lies little-endian, and every other byte is as before. -/
def Obligations.WordLiesLittleEndian : Prop :=
  ∀ (s : State) (a : Addr) (v : Word), Ready s →
    writeClass s.cfg s.bootMode a (v.extractLsb' 0 8) = .store →
    writeClass s.cfg s.bootMode (a + 1) (v.extractLsb' 8 8) = .store →
      ∃ t, exec (.writeWord a v) s = .next t ∧
        Mem.read t.addressSpace a.toNat = v.extractLsb' 0 8 ∧
        Mem.read t.addressSpace (a + 1).toNat = v.extractLsb' 8 8 ∧
        (∀ k, k ≠ a.toNat → k ≠ (a + 1).toNat → Mem.read t.addressSpace k = Mem.read s.addressSpace k) ∧
        t = { s with addressSpace := t.addressSpace, response := some .ok }

/-- O24. R150: a block write stores its bytes raw into `AS`, past every special case, or faults with `BlockOverrun`
and writes nothing. -/
def Obligations.WriteBlockRaw : Prop :=
  (∀ (a : Addr) (bytes : List Byte), decode ⟨0x3#4 ++ a ++ 0#16, .payload bytes⟩ = .ok (.writeBlock a bytes)) ∧
  ∀ (s : State) (a : Addr) (bytes : List Byte), Ready s →
    (0x10000 < a.toNat + bytes.length → exec (.writeBlock a bytes) s = .next
      { s with fault := some .blockOverrun, response := some (.fault (.blockOverrun a bytes.length)) }) ∧
    (a.toNat + bytes.length ≤ 0x10000 → ∃ t, exec (.writeBlock a bytes) s = .next t ∧
      (∀ j, j < bytes.length → Mem.read t.addressSpace (a.toNat + j) = bytes.getD j 0) ∧
      (∀ k, k < a.toNat ∨ a.toNat + bytes.length ≤ k →
        Mem.read t.addressSpace k = Mem.read s.addressSpace k) ∧
      t = { s with addressSpace := t.addressSpace, response := some .ok })

/-! ### The DMA engine -/

/-- O25. R171: the source address of page `p` is `p * 0x100`, exactly. -/
def Obligations.DmaSourceAddress : Prop :=
  ∀ p : Byte, (dmaSource p).toNat = p.toNat * 0x100 ∧ (dmaSource p).toNat ≤ 0xFF00

/-- O26. R174, R175, R177: a trigger from a cartridge page takes the lock, zeroes the count, and moves 160 bytes of the
cartridge's buffer into OAM bytes 0 to 159 in order; nothing else changes, the page is not stored, and the boot overlay
plays no part. -/
def Obligations.DmaFromCartridge : Prop :=
  ∀ (s : State) (p : Byte) (c : Cart), Ready s → s.dma.active = false → s.cart = some c →
    ∀ kibr ∈ [(DmaClass.rom0, Instr.dmaSrcRom0 p, c.rom0, s.cfg.rom0),
        (DmaClass.romx, Instr.dmaSrcRomx p, c.romx, s.cfg.romx),
        (DmaClass.eram, Instr.dmaSrcEram p, c.ram, s.cfg.eram)],
      (∀ q, decodePage q = kibr.1 ↔ dmaClass Params.dmg (dmaSource q) = kibr.1) ∧
      (dmaClass s.cfg (dmaSource p) = kibr.1 →
        (dmaSource p).toNat - kibr.2.2.2.lo.toNat + 160 ≤ kibr.2.2.1.length →
        ∀ i ∈ [Instr.writeByte 0xFF46#16 p, Instr.writeByteDmaTrigger p, kibr.2.1], ∃ t, exec i s = .next t ∧
          (∀ j, j < 160 → Mem.read t.oam j
            = kibr.2.2.1.getD ((dmaSource p).toNat - kibr.2.2.2.lo.toNat + j) 0) ∧
          (∀ j, 160 ≤ j → Mem.read t.oam j = Mem.read s.oam j) ∧
          t = { s with dma := ⟨true, 0⟩, oam := t.oam, response := some .ok })

/-- O27. R176: a trigger from a VRAM page moves 160 bytes of `PPU.vram` from the page's offset in the range. -/
def Obligations.DmaFromVideoRam : Prop :=
  (∀ q, decodePage q = .vram ↔ dmaClass Params.dmg (dmaSource q) = .vram) ∧
  (∀ q, decodePage q = .vram →
    (dmaSource q).toNat - 0x8000 = (q.toNat - 0x80) * 0x100 ∧ (dmaSource q).toNat - 0x8000 + 160 ≤ 0x1FA0) ∧
  ∀ (s : State) (p : Byte), Ready s → s.dma.active = false → dmaClass s.cfg (dmaSource p) = .vram →
    (dmaSource p).toNat - s.cfg.vram.lo.toNat + 160 ≤ s.cfg.vramSize →
    ∀ i ∈ [Instr.writeByte 0xFF46#16 p, Instr.writeByteDmaTrigger p, Instr.dmaSrcVram p], ∃ t, exec i s = .next t ∧
      (∀ j, j < 160 → Mem.read t.oam j = Mem.read s.vram ((dmaSource p).toNat - s.cfg.vram.lo.toNat + j)) ∧
      (∀ j, 160 ≤ j → Mem.read t.oam j = Mem.read s.oam j) ∧
      t = { s with dma := ⟨true, 0⟩, oam := t.oam, response := some .ok }

/-- O28. R179: a trigger from any other page moves the 160 raw bytes `AS[src .. src+160)`, and never faults on its
bounds. -/
def Obligations.DmaFromAddressSpace : Prop :=
  (∀ q, decodePage q = .store ↔ dmaClass Params.dmg (dmaSource q) = .store) ∧
  ∀ (s : State) (p : Byte), Ready s → s.dma.active = false → dmaClass s.cfg (dmaSource p) = .store →
    ∀ i ∈ [Instr.writeByte 0xFF46#16 p, Instr.writeByteDmaTrigger p, Instr.dmaSrcStore p], ∃ t, exec i s = .next t ∧
      (∀ j, j < 160 → Mem.read t.oam j = Mem.read s.addressSpace (p.toNat * 0x100 + j)) ∧
      (∀ j, 160 ≤ j → Mem.read t.oam j = Mem.read s.oam j) ∧
      t = { s with dma := ⟨true, 0⟩, oam := t.oam, response := some .ok }

/-- O29. R178: a trigger from the OAM page moves no byte and still takes the lock. -/
def Obligations.DmaFromOamMovesNothing : Prop :=
  (∀ q, decodePage q = .oam ↔ dmaClass Params.dmg (dmaSource q) = .oam) ∧
  ∀ (s : State) (p : Byte), Ready s → s.dma.active = false → dmaClass s.cfg (dmaSource p) = .oam →
    ∀ i ∈ [Instr.writeByte 0xFF46#16 p, Instr.writeByteDmaTrigger p, Instr.dmaSrcOam p],
      exec i s = .next { s with dma := ⟨true, 0⟩, response := some .ok }

/-- O30. R203: a trigger while Active faults with `DmaAlreadyRunning(p)` and changes nothing else, also as either half
of a word write; a block write never raises it. -/
def Obligations.TriggerWhileActiveFaults : Prop :=
  (∀ (s : State) (p : Byte), Ready s → s.dma.active = true →
    ∀ i ∈ [Instr.writeByte 0xFF46#16 p, Instr.writeByteDmaTrigger p, Instr.dmaSrcRom0 p, Instr.dmaSrcRomx p,
        Instr.dmaSrcVram p, Instr.dmaSrcEram p, Instr.dmaSrcOam p, Instr.dmaSrcStore p],
      exec i s = .next { s with fault := some .dmaAlreadyRunning, response := some (.fault (.dmaAlreadyRunning p)) }) ∧
  (∀ (s : State) (v : Word), Ready s → s.dma.active = true →
    exec (.writeWord 0xFF46#16 v) s = .next
      { s with fault := some .dmaAlreadyRunning, response := some (.fault (.dmaAlreadyRunning (v.extractLsb' 0 8))) } ∧
    ∀ t, exec (.writeByte 0xFF45#16 (v.extractLsb' 0 8)) s = .next t → t.fault = none →
      exec (.writeWord 0xFF45#16 v) s = .next
        { t with fault := some .dmaAlreadyRunning,
                 response := some (.fault (.dmaAlreadyRunning (v.extractLsb' 8 8))) }) ∧
  (∀ (s t : State) (a : Addr) (bytes : List Byte), Ready s → exec (.writeBlock a bytes) s = .next t →
    t.fault ≠ some .dmaAlreadyRunning ∧ t.dma = s.dma)

/-- O31. R181, and D7's `NoCartridge` before it (R208): a trigger whose buffer is absent or too short faults and changes
nothing else. -/
def Obligations.TriggerSourceFaults : Prop :=
  ∀ (s : State) (p : Byte), Ready s → s.dma.active = false →
    (dmaClass s.cfg (dmaSource p) = .rom0 ∨ dmaClass s.cfg (dmaSource p) = .romx ∨
        dmaClass s.cfg (dmaSource p) = .eram → s.cart = none →
      ∀ i ∈ [Instr.writeByte 0xFF46#16 p, Instr.writeByteDmaTrigger p],
        exec i s = .next { s with fault := some .noCartridge, response := some (.fault (.noCartridge (.page p))) }) ∧
    (∀ c, s.cart = some c →
      (dmaClass s.cfg (dmaSource p) = .rom0 ∧ c.rom0.length < offsetIn s.cfg.rom0 (dmaSource p) + 160) ∨
      (dmaClass s.cfg (dmaSource p) = .romx ∧ c.romx.length < offsetIn s.cfg.romx (dmaSource p) + 160) ∨
      (dmaClass s.cfg (dmaSource p) = .eram ∧ c.ram.length < offsetIn s.cfg.eram (dmaSource p) + 160) →
      ∀ i ∈ [Instr.writeByte 0xFF46#16 p, Instr.writeByteDmaTrigger p],
        exec i s = .next
          { s with fault := some .dmaSourceOutOfBounds, response := some (.fault (.dmaSourceOutOfBounds p)) }) ∧
    (dmaClass s.cfg (dmaSource p) = .vram → s.cfg.vramSize < offsetIn s.cfg.vram (dmaSource p) + 160 →
      ∀ i ∈ [Instr.writeByte 0xFF46#16 p, Instr.writeByteDmaTrigger p],
        exec i s = .next
          { s with fault := some .dmaSourceOutOfBounds, response := some (.fault (.dmaSourceOutOfBounds p)) })

/-- O32. R182, R183: an advance counts while Active, drops to Idle in the first advance that reaches `DMA_CYCLES`, and
does nothing while Idle. -/
def Obligations.DmaAdvanceCounts : Prop :=
  decode ⟨0x500000000#36, .count 64⟩ = .ok (.dmaAdvance 64) ∧
  ∀ (s : State) (n : Nat), Ready s →
    (s.dma.active = true → s.dma.elapsed + n < s.cfg.dmaCycles → exec (.dmaAdvance n) s = .next
      { s with dma := ⟨true, s.dma.elapsed + n⟩, response := some .ok }) ∧
    (s.dma.active = true → s.cfg.dmaCycles ≤ s.dma.elapsed + n → exec (.dmaAdvance n) s = .next
      { s with dma := ⟨false, s.dma.elapsed + n⟩, response := some .ok }) ∧
    (s.dma.active = false → exec (.dmaAdvance n) s = .next { s with response := some .ok })

/-- O33. R184: the status read answers `dma.active` and changes nothing. -/
def Obligations.DmaActiveReadsTheLock : Prop :=
  decode ⟨0x400000000#36, .none⟩ = .ok .dmaActive ∧
  ∀ s : State, Ready s → exec .dmaActive s = .next { s with response := some (.active s.dma.active) }

/-- O34. R90: with `k ≥ 1`, `m` advances of `k` end the window as soon as they cover what is left of `DMA_CYCLES`, and
not before; nothing but the engine and the response changes. -/
def Obligations.WaitLoopEndsInTime : Prop :=
  ∀ (s : State) (k m : Nat), Ready s → s.dma.active = true → s.dma.elapsed < s.cfg.dmaCycles → 1 ≤ k →
    ∃ t, advanceTimes k m s = .next t ∧
      (t.dma.active = true ↔ s.dma.elapsed + m * k < s.cfg.dmaCycles) ∧
      t = { s with dma := t.dma, response := t.response }

/-- O35. R185: outside the engine's own transactions the busy window changes nothing: whatever the engine's state, a
read, a write that is no trigger, and a block write give the same next state, with the engine as it was. -/
def Obligations.BusyWindowIsNotEnforced : Prop :=
  ∀ (s t : State) (d : Dma) (i : Instr),
    (∃ a, i = .readByte a) ∨ (∃ a v, i = .writeByte a v ∧ a ≠ 0xFF46#16) ∨
      (∃ a v, i = .writeWord a v ∧ a ≠ 0xFF46#16 ∧ a ≠ 0xFF45#16) ∨ (∃ a bytes, i = .writeBlock a bytes) →
    exec i s = .next t → exec i { s with dma := d } = .next { t with dma := d }

/-! ### Faults and refusals -/

/-- O36. R206: a faulting transaction sets the register to its fault's code and answers `FAULT(code, info)`; after it no
transaction and no step is taken. -/
def Obligations.FaultIsStickyAndFatal : Prop :=
  (∀ (s t : State) (i : Instr), exec i s = .next t → t.fault ≠ none →
    ∃ f : BusFault, t.fault = some f.code ∧ t.response = some (.fault f)) ∧
  (∀ (s : State) (i : Instr), s.fault ≠ none → exec i s = .fault .stuck) ∧
  (∀ s : State, s.fault ≠ none → step s = .fault .stuck)

/-- O37. R207: a faulting transaction makes no other change; a `WRITE_WORD` keeps at most its first byte write. -/
def Obligations.FaultChangesNothingElse : Prop :=
  ∀ (s t : State) (i : Instr), exec i s = .next t → t.fault ≠ none →
    t = { s with fault := t.fault, response := t.response } ∨
    ∃ a v u, i = .writeWord a v ∧ exec (.writeByte a (v.extractLsb' 0 8)) s = .next u ∧ u.fault = none ∧
      t = { u with fault := t.fault, response := t.response }

/-- O38. R205: a refused request sets the sticky mark and changes nothing else, and no step clears the mark. -/
def Obligations.RefusalChangesOnlyTheMark : Prop :=
  (∀ (s t : State) (i : Instr) (r : Reason), exec i s = .next t → t.response = some (.refused r) →
    t = { s with refusalMark := true, response := some (.refused r) }) ∧
  (∀ s t : State, step s = .next t → s.refusalMark = true → t.refusalMark = true)

/-- O39. R204 on R58's totality: on a cartridge-backed block whose buffers are long enough, an idle engine, and blocks
inside the address space, no transaction but a trigger hidden in a word write can fault. -/
def Obligations.WellConfiguredBlockNeverFaults : Prop :=
  ∀ (s : State) (c : Cart) (i : Instr), Ready s → configValid s.cfg = true → s.cart = some c →
    BuffersLongEnough s.cfg c → s.dma.active = false →
    (∃ a, i = .readByte a) ∨ (∃ a v, i = .writeByte a v) ∨ i = .dmaActive ∨ (∃ n, i = .dmaAdvance n) ∨
      (∃ a v, i = .writeWord a v ∧ a ≠ 0xFF46#16 ∧ a ≠ 0xFF45#16) ∨
      (∃ a bytes, i = .writeBlock a bytes ∧ a.toNat + bytes.length ≤ 0x10000) →
    ∃ t, exec i s = .next t ∧ t.fault = none ∧ t.refusalMark = s.refusalMark

/-! ### Decoding -/

/-- O40. A class row of the opcode table runs exactly as the transaction it belongs to (R85), in every state. -/
def Obligations.ClassRowRunsItsTransaction : Prop :=
  ∀ (i : Instr) (s : State), exec i s = exec i.core s

/-- O41. R85: the mask and match rows of the opcode table, tried in priority order, give the routing of R56, R57 and
R173 under the default `MAP`. -/
def Obligations.TablesAgreeWithRouting : Prop :=
  (∀ (boot : Bool) (a : Addr), decodeRead boot (0x0#4 ++ a) = readClass Params.dmg boot a) ∧
  (∀ (boot : Bool) (a : Addr) (v : Byte), decodeWrite boot (0x1#4 ++ a) v = writeClass Params.dmg boot a v) ∧
  (∀ p : Byte, decodePage p = dmaClass Params.dmg (dmaSource p))

/-- O42. Decoding the encoded request of a well-formed instruction gives its transaction back, with every operand. -/
def Obligations.DecodeEncodeRoundTrip : Prop :=
  ∀ i : Instr, i.wellFormed = true → decode (encode i) = .ok i.core

/-- O43. The decode tables give every well-formed class row back from its transaction: in one step from a byte access,
in a second from a DMA trigger to its source class. -/
def Obligations.ClassRowsAreRecovered : Prop :=
  ∀ i : Instr, i.wellFormed = true → i.core ≠ i →
    classify (rowMode i) i.core = i ∨ classify (rowMode i) (classify (rowMode i) i.core) = i

/-- O44. Words of 30_encoding.md R89 and 95_test_vectors.md decode as they are written there. -/
def Obligations.SpecWordsDecode : Prop :=
  decode ⟨0x1FF4600C0#36, .none⟩ = .ok (.writeByte 0xFF46#16 0xC0#8) ∧
  decode ⟨0x0C0000000#36, .none⟩ = .ok (.readByte 0xC000#16) ∧
  decode ⟨0x2FEFF30AA#36, .none⟩ = .ok (.writeWord 0xFEFF#16 0x30AA#16) ∧
  decode ⟨0x3FFF00000#36, .payload [1, 2]⟩ = .ok (.writeBlock 0xFFF0#16 [1, 2]) ∧
  decode ⟨0x700000000#36, .payload []⟩ = .ok (.constructCart []) ∧
  decode ⟨0x1C0000142#36, .none⟩ = .error .badOperand ∧
  decode ⟨0x4C0000000#36, .none⟩ = .error .badOperand

/-- O45. R59, which the spec marks as its own inference from R56 and R57: under a configuration that meets R52, the owner
of a read owns the write too, but for the overlay window in boot mode, the three registers and the timer window. -/
def Obligations.OwnersAgree : Prop :=
  ∀ (c : Params) (boot : Bool) (a : Addr) (v : Byte), configValid c = true →
    match readClass c boot a with
    | .boot => boot = true ∧ a.toNat < 0x100
    | .cartRom0 => writeClass c boot a v = .cartRom0
    | .cartRomx => writeClass c boot a v = .cartRomx
    | .cartEram => writeClass c boot a v = .cartEram
    | .vram => writeClass c boot a v = .vram
    | .oam => writeClass c boot a v = .oam
    | .store =>
      match writeClass c boot a v with
      | .store => True
      | .dmaTrigger => a = 0xFF46#16
      | .joypad => a = 0xFF00#16
      | .bootDisable => boot = true ∧ a = 0xFF50#16 ∧ v = 0x01
      | .timer => c.timer.contains a = true
      | _ => False

/-! ### The whole machine -/

/-- O46. R60, R66: a byte stored at a storage address is what the next read there answers, and a read of any other
storage address answers what it did before; nothing is mirrored. -/
def Obligations.StoredByteIsReadBackNowhereElse : Prop :=
  ∀ (s : State) (a : Addr) (v : Byte), Ready s → writeClass s.cfg s.bootMode a v = .store →
    ∃ t, exec (.writeByte a v) s = .next t ∧
      (readClass s.cfg s.bootMode a = .store →
        exec (.readByte a) t = .next { t with response := some (.rdata v) }) ∧
      ∀ b : Addr, b ≠ a → readClass s.cfg s.bootMode b = .store →
        exec (.readByte b) t = .next { t with response := some (.rdata (Mem.read s.addressSpace b.toNat)) }

/-- O47. Every step keeps the invariant `StateInv`: memory stays canonical and inside its array, only a valid configuration
is constructed, an Active engine's count stays below `DMA_CYCLES`. -/
def Obligations.StepKeepsInv : Prop :=
  ∀ s t : State, StateInv s → step s = .next t → StateInv t

/-- O48. The invariant holds at reset, and there the block can be constructed and holds no fault. -/
def Obligations.ResetInv : Prop :=
  StateInv State.reset ∧ Constructible State.reset ∧ Safe State.reset

/-- O49. R22: once constructed, the block never enters boot mode, and leaves it only by writing 0x01 to 0xFF50, as a
byte write or as one half of a word write. -/
def Obligations.BootModeLeavesOnlyByLatch : Prop :=
  ∀ s t : State, s.constructed = true → step s = .next t →
    (t.bootMode = true → s.bootMode = true) ∧
    (s.bootMode = true → t.bootMode = false → ∃ r rest, s.inputs = .transaction r :: rest ∧
      (decode r = .ok (.writeByte 0xFF50#16 0x01) ∨
        ∃ a v, decode r = .ok (.writeWord a v) ∧
          ((a = 0xFF50#16 ∧ v.extractLsb' 0 8 = 0x01#8) ∨ (a + 1 = 0xFF50#16 ∧ v.extractLsb' 8 8 = 0x01#8))))

/-- O50. R7: no step changes the parameters; a step is taken only without a fault, and never undoes the construction. -/
def Obligations.ParametersAreConstant : Prop :=
  ∀ s t : State, step s = .next t →
    t.cfg = s.cfg ∧ s.fault = none ∧ (s.constructed = true → t.constructed = true)

/-- O51. R20: an `AS` byte changes only by a construction, by a byte write routed to storage (the joypad's included) at
its address, by the latch, by a word write doing one of these, or by a block write over it; a DMA never writes `AS`. -/
def Obligations.AddressSpaceWriters : Prop :=
  ∀ (s t : State) (k : Nat), step s = .next t →
    Mem.read t.addressSpace k ≠ Mem.read s.addressSpace k →
    ∃ r rest i, s.inputs = .transaction r :: rest ∧ decode r = .ok i ∧
      (isConstruction i = true ∨
        (∃ a bytes, i = .writeBlock a bytes ∧ a.toNat ≤ k ∧ k < a.toNat + bytes.length) ∨
        (∃ a v, i = .writeByte a v ∧
          (writeClass s.cfg s.bootMode a v = .bootDisable ∨
            ((writeClass s.cfg s.bootMode a v = .store ∨ writeClass s.cfg s.bootMode a v = .joypad) ∧ a.toNat = k))) ∨
        (∃ a v, i = .writeWord a v ∧
          (a.toNat = k ∨ (a + 1).toNat = k ∨
            (s.bootMode = true ∧
              ((a = 0xFF50#16 ∧ v.extractLsb' 0 8 = 0x01#8) ∨
                (a + 1 = 0xFF50#16 ∧ v.extractLsb' 8 8 = 0x01#8))))))

/-- O52. R24: once constructed, the cartridge changes only by a write routed to a cartridge range, as a byte write or as
one half of a word write, and a block without a cartridge never gets one. -/
def Obligations.CartridgeChangesOnlyByItsWrites : Prop :=
  ∀ s t : State, s.constructed = true → step s = .next t →
    (s.cart = none → t.cart = none) ∧
    (t.cart ≠ s.cart → ∃ r rest, s.inputs = .transaction r :: rest ∧
      ((∃ a v, decode r = .ok (.writeByte a v) ∧
          rangeClass s.cfg a ∈ [WriteClass.cartRom0, .cartRomx, .cartEram]) ∨
        (∃ a v, decode r = .ok (.writeWord a v) ∧
          (rangeClass s.cfg a ∈ [WriteClass.cartRom0, .cartRomx, .cartEram] ∨
            rangeClass s.cfg (a + 1) ∈ [WriteClass.cartRom0, .cartRomx, .cartEram]))))

/-- O53. R23: the engine's state changes only by a construction, an advance, or a write of a byte to 0xFF46, as a byte
write or as one half of a word write. -/
def Obligations.EngineWriters : Prop :=
  ∀ s t : State, step s = .next t → t.dma ≠ s.dma →
    ∃ r rest i, s.inputs = .transaction r :: rest ∧ decode r = .ok i ∧
      (isConstruction i = true ∨ (∃ n, i = .dmaAdvance n) ∨ (∃ p, i = .writeByte 0xFF46#16 p) ∨
        ∃ a v, i = .writeWord a v ∧ (a = 0xFF46#16 ∨ a + 1 = 0xFF46#16))

/-- O54. R26, R27: the collaborators' states change only by their own events or by byte writes (halves of word writes
included) into their ranges, and OAM also by a DMA trigger. -/
def Obligations.CollaboratorWriters : Prop :=
  ∀ s t : State, step s = .next t →
    let written (c : Addr → Prop) : Prop := ∃ r rest, s.inputs = .transaction r :: rest ∧
      ((∃ a v, decode r = .ok (.writeByte a v) ∧ c a) ∨
        ∃ a v, decode r = .ok (.writeWord a v) ∧ (c a ∨ c (a + 1)))
    (t.timer ≠ s.timer → (∃ u rest, s.inputs = .agent (.timer u) :: rest) ∨
      written (fun a => s.cfg.timer.contains a = true)) ∧
    (t.vram ≠ s.vram → (∃ k v rest, s.inputs = .agent (.ppuVram k v) :: rest) ∨
      written (fun a => s.cfg.vram.contains a = true)) ∧
    (t.oam ≠ s.oam → (∃ k v rest, s.inputs = .agent (.ppuOam k v) :: rest) ∨
      written (fun a => s.cfg.oam.contains a = true ∨ a = 0xFF46#16))
end

