-- ==== Sys2Proof/Laws/Encoding.lean ====
section
/-! SUPPORT. The fields of a request word: packing and reading them back, and the byte halves of a data field. -/

namespace Sys2Proof

theorem Request.pack_toNat (op : BitVec 4) (a d : BitVec 16) (att : Attachment) :
    (Request.pack op a d att).word.toNat = op.toNat * 2 ^ 32 + a.toNat * 2 ^ 16 + d.toNat := by
  simp only [Request.pack, BitVec.toNat_append]
  rw [← Nat.shiftLeft_add_eq_or_of_lt a.isLt, ← Nat.shiftLeft_add_eq_or_of_lt d.isLt]
  simp only [Nat.shiftLeft_eq]
  omega

@[simp] theorem Request.pack_op (op : BitVec 4) (a d : BitVec 16) (att : Attachment) :
    (Request.pack op a d att).op = op := by
  apply BitVec.eq_of_toNat_eq
  simp only [Request.op, BitVec.extractLsb'_toNat, Request.pack_toNat, Nat.shiftRight_eq_div_pow]
  have := op.isLt
  have := a.isLt
  have := d.isLt
  omega

@[simp] theorem Request.pack_addr (op : BitVec 4) (a d : BitVec 16) (att : Attachment) :
    (Request.pack op a d att).addr = a := by
  apply BitVec.eq_of_toNat_eq
  simp only [Request.addr, BitVec.extractLsb'_toNat, Request.pack_toNat, Nat.shiftRight_eq_div_pow]
  have := a.isLt
  have := d.isLt
  omega

@[simp] theorem Request.pack_data (op : BitVec 4) (a d : BitVec 16) (att : Attachment) :
    (Request.pack op a d att).data = d := by
  apply BitVec.eq_of_toNat_eq
  simp only [Request.data, BitVec.extractLsb'_toNat, Request.pack_toNat, Nat.shiftRight_eq_div_pow]
  have := d.isLt
  omega

@[simp] theorem Request.pack_att (op : BitVec 4) (a d : BitVec 16) (att : Attachment) :
    (Request.pack op a d att).att = att := rfl

/-- A request is its fields. -/
theorem Request.pack_fields (r : Request) : Request.pack r.op r.addr r.data r.att = r := by
  obtain ⟨w, att⟩ := r
  have h : (Request.pack (Request.op ⟨w, att⟩) (Request.addr ⟨w, att⟩) (Request.data ⟨w, att⟩) att).word = w := by
    apply BitVec.eq_of_toNat_eq
    rw [Request.pack_toNat]
    simp only [Request.op, Request.addr, Request.data, BitVec.extractLsb'_toNat, Nat.shiftRight_eq_div_pow]
    have := w.isLt
    omega
  exact congrArg (Request.mk · att) h

@[simp] theorem lowByte_zext16 (v : Byte) : lowByte (zext16 v) = v := by
  apply BitVec.eq_of_toNat_eq
  have := v.isLt
  simp [lowByte, zext16]
  omega

@[simp] theorem highByte_zext16 (v : Byte) : highByte (zext16 v) = 0 := by
  apply BitVec.eq_of_toNat_eq
  have := v.isLt
  simp [highByte, zext16, Nat.shiftRight_eq_div_pow]
  omega

/-- A data field whose high byte is 0x00 is its low byte. -/
theorem zext16_lowByte {d : BitVec 16} (h : highByte d = 0) : zext16 (lowByte d) = d := by
  have h2 := congrArg BitVec.toNat h
  apply BitVec.eq_of_toNat_eq
  have := d.isLt
  simp [highByte, Nat.shiftRight_eq_div_pow] at h2
  simp [lowByte, zext16]
  omega

end Sys2Proof
end

