-- ==== Sys2Proof/Laws/Memory.lean ====
section
/-! SUPPORT. The laws of byte arrays: a read after a write, a read after a run of writes, and that every memory operation
keeps the canonical form. -/

namespace Sys2Proof.Machine

open Sys2Proof

/-! ### Reading after writing -/

@[simp] theorem Mem.read_nil (a : Nat) : Mem.read [] a = 0 := rfl

theorem Mem.read_insert (m : Mem) (a k : Nat) (v : Byte) :
    Mem.read (Mem.insert m a v) k = if a = k then v else Mem.read m k := by
  induction m with
  | nil => simp [Mem.insert, Mem.read]
  | cons c rest ih =>
    obtain ⟨i, b⟩ := c
    unfold Mem.insert
    split
    · simp [Mem.read]
    · split
      · subst i
        simp only [Mem.read]
        split <;> rfl
      · rename_i h1 h2
        simp only [Mem.read, ih]
        by_cases hk : i = k
        · subst hk; simp [h2]
        · simp [hk]

theorem Mem.read_filter (m : Mem) (a k : Nat) :
    Mem.read (m.filter fun c => c.1 != a) k = if a = k then 0 else Mem.read m k := by
  induction m with
  | nil => simp
  | cons c rest ih =>
    obtain ⟨i, b⟩ := c
    by_cases hi : i = a
    · subst hi
      simp only [List.filter, bne_self_eq_false, ih, Mem.read]
      by_cases hk : i = k <;> simp [hk]
    · simp only [List.filter, bne_iff_ne.mpr hi, Mem.read, ih]
      by_cases hk : i = k
      · subst hk; simp [Ne.symm hi]
      · simp [hk]

/-- A read gives the value last written there; every other byte reads as before. -/
theorem Mem.read_write (m : Mem) (a k : Nat) (v : Byte) :
    Mem.read (Mem.write m a v) k = if a = k then v else Mem.read m k := by
  unfold Mem.write
  split
  · rename_i h; rw [Mem.read_filter, h]
  · exact Mem.read_insert m a k v

@[simp] theorem Mem.read_write_self (m : Mem) (a : Nat) (v : Byte) : Mem.read (Mem.write m a v) a = v := by
  simp [Mem.read_write]

theorem Mem.read_write_other (m : Mem) {a k : Nat} (v : Byte) (h : a ≠ k) :
    Mem.read (Mem.write m a v) k = Mem.read m k := by
  simp [Mem.read_write, h]

@[simp] theorem Mem.writeList_nil (m : Mem) (a : Nat) : Mem.writeList m a [] = m := rfl

/-- After a run of writes from `a`, the run's bytes read as written and every other byte as before. -/
theorem Mem.read_writeList (bytes : List Byte) (m : Mem) (a k : Nat) :
    Mem.read (Mem.writeList m a bytes) k
      = if a ≤ k ∧ k < a + bytes.length then bytes.getD (k - a) 0 else Mem.read m k := by
  induction bytes generalizing m a with
  | nil =>
    have h : ¬(a ≤ k ∧ k < a + ([] : List Byte).length) := by simp
    rw [if_neg h, Mem.writeList_nil]
  | cons b rest ih =>
    rw [Mem.writeList, ih, Mem.read_write]
    by_cases hk : a = k
    · subst hk; simp
    · by_cases hin : a + 1 ≤ k ∧ k < a + 1 + rest.length
      · have h1 : a ≤ k ∧ k < a + (b :: rest).length := by simp; omega
        have h2 : k - a = (k - (a + 1)) + 1 := by omega
        rw [if_pos hin, if_pos h1, h2]
        rfl
      · have h1 : ¬(a ≤ k ∧ k < a + (b :: rest).length) := by simp; omega
        rw [if_neg hin, if_neg h1, if_neg hk]

@[simp] theorem Mem.slice_length (m : Mem) (off n : Nat) : (Mem.slice m off n).length = n := by simp [Mem.slice]

theorem Mem.slice_getD (m : Mem) {off n i : Nat} (h : i < n) :
    (Mem.slice m off n).getD i 0 = Mem.read m (off + i) := by
  simp [Mem.slice, List.getD, h]

/-! ### The canonical form -/

@[simp] theorem Mem.wf_nil (size : Nat) : Mem.wf size [] = true := rfl

theorem Mem.wfFrom_cons {size lo k : Nat} {b : Byte} {rest : Mem} :
    Mem.wfFrom size lo ((k, b) :: rest) = true ↔
      lo ≤ k ∧ k < size ∧ b ≠ 0 ∧ Mem.wfFrom size (k + 1) rest = true := by
  simp only [Mem.wfFrom, Bool.and_eq_true, decide_eq_true_eq, bne_iff_ne, and_assoc]

theorem Mem.wfFrom_mono {size : Nat} {lo lo' : Nat} (h : lo' ≤ lo) {m : Mem} (hm : Mem.wfFrom size lo m = true) :
    Mem.wfFrom size lo' m = true := by
  cases m with
  | nil => rfl
  | cons c rest =>
    obtain ⟨i, b⟩ := c
    rw [Mem.wfFrom_cons] at hm ⊢
    exact ⟨by omega, hm.2⟩

theorem Mem.wfFrom_insert {size lo a : Nat} {v : Byte} (hlo : lo ≤ a) (ha : a < size) (hv : v ≠ 0) {m : Mem}
    (hm : Mem.wfFrom size lo m = true) : Mem.wfFrom size lo (Mem.insert m a v) = true := by
  induction m generalizing lo with
  | nil => exact Mem.wfFrom_cons.mpr ⟨hlo, ha, hv, rfl⟩
  | cons c rest ih =>
    obtain ⟨i, b⟩ := c
    obtain ⟨h1, h2, h3, h4⟩ := Mem.wfFrom_cons.mp hm
    unfold Mem.insert
    split
    · exact Mem.wfFrom_cons.mpr ⟨hlo, ha, hv, Mem.wfFrom_cons.mpr ⟨by omega, h2, h3, h4⟩⟩
    · split
      · subst i; exact Mem.wfFrom_cons.mpr ⟨hlo, ha, hv, h4⟩
      · exact Mem.wfFrom_cons.mpr ⟨h1, h2, h3, ih (by omega) h4⟩

theorem Mem.wfFrom_filter {size lo a : Nat} {m : Mem} (hm : Mem.wfFrom size lo m = true) :
    Mem.wfFrom size lo (m.filter fun c => c.1 != a) = true := by
  induction m generalizing lo with
  | nil => rfl
  | cons c rest ih =>
    obtain ⟨i, b⟩ := c
    obtain ⟨h1, h2, h3, h4⟩ := Mem.wfFrom_cons.mp hm
    by_cases hi : i = a
    · simp only [List.filter, hi, bne_self_eq_false]
      exact Mem.wfFrom_mono (by omega) (hi ▸ ih h4)
    · simp only [List.filter, bne_iff_ne.mpr hi]
      exact Mem.wfFrom_cons.mpr ⟨h1, h2, h3, ih h4⟩

/-- A write inside the array keeps the canonical form. -/
theorem Mem.wf_write {size a : Nat} (v : Byte) {m : Mem} (ha : a < size) (hm : Mem.wf size m = true) :
    Mem.wf size (Mem.write m a v) = true := by
  unfold Mem.write
  split
  · exact Mem.wfFrom_filter hm
  · rename_i h; exact Mem.wfFrom_insert (Nat.zero_le a) ha h hm

/-- A run of writes inside the array keeps the canonical form. -/
theorem Mem.wf_writeList {size : Nat} (bytes : List Byte) {m : Mem} {a : Nat} (ha : a + bytes.length ≤ size)
    (hm : Mem.wf size m = true) : Mem.wf size (Mem.writeList m a bytes) = true := by
  induction bytes generalizing m a with
  | nil => exact hm
  | cons b rest ih =>
    simp only [List.length_cons] at ha
    exact ih (by omega) (Mem.wf_write b (by omega) hm)

end Sys2Proof.Machine
end

