-- ==== Sys2Proof/Laws/State.lean ====
section
/-! SUPPORT. What each named update leaves in each field of State: true by unfolding, so that no later proof unfolds a
record update. -/

namespace Sys2Proof.Machine

open Sys2Proof

variable (s : State)

@[simp] theorem respond_cfg (r : Response) : (respond r s).cfg = s.cfg := rfl
@[simp] theorem respond_addressSpace (r : Response) : (respond r s).addressSpace = s.addressSpace := rfl
@[simp] theorem respond_bootMode (r : Response) : (respond r s).bootMode = s.bootMode := rfl
@[simp] theorem respond_dma (r : Response) : (respond r s).dma = s.dma := rfl
@[simp] theorem respond_cart (r : Response) : (respond r s).cart = s.cart := rfl
@[simp] theorem respond_fault (r : Response) : (respond r s).fault = s.fault := rfl
@[simp] theorem respond_constructed (r : Response) : (respond r s).constructed = s.constructed := rfl
@[simp] theorem respond_vram (r : Response) : (respond r s).vram = s.vram := rfl
@[simp] theorem respond_oam (r : Response) : (respond r s).oam = s.oam := rfl
@[simp] theorem respond_timer (r : Response) : (respond r s).timer = s.timer := rfl
@[simp] theorem respond_refusalMark (r : Response) : (respond r s).refusalMark = s.refusalMark := rfl
@[simp] theorem respond_response (r : Response) : (respond r s).response = some r := rfl
@[simp] theorem respond_inputs (r : Response) : (respond r s).inputs = s.inputs := rfl

@[simp] theorem raise_cfg (f : BusFault) : (raise f s).cfg = s.cfg := rfl
@[simp] theorem raise_addressSpace (f : BusFault) : (raise f s).addressSpace = s.addressSpace := rfl
@[simp] theorem raise_bootMode (f : BusFault) : (raise f s).bootMode = s.bootMode := rfl
@[simp] theorem raise_dma (f : BusFault) : (raise f s).dma = s.dma := rfl
@[simp] theorem raise_cart (f : BusFault) : (raise f s).cart = s.cart := rfl
@[simp] theorem raise_fault (f : BusFault) : (raise f s).fault = some f.code := rfl
@[simp] theorem raise_constructed (f : BusFault) : (raise f s).constructed = s.constructed := rfl
@[simp] theorem raise_vram (f : BusFault) : (raise f s).vram = s.vram := rfl
@[simp] theorem raise_oam (f : BusFault) : (raise f s).oam = s.oam := rfl
@[simp] theorem raise_timer (f : BusFault) : (raise f s).timer = s.timer := rfl
@[simp] theorem raise_refusalMark (f : BusFault) : (raise f s).refusalMark = s.refusalMark := rfl
@[simp] theorem raise_response (f : BusFault) : (raise f s).response = some (.fault f) := rfl
@[simp] theorem raise_inputs (f : BusFault) : (raise f s).inputs = s.inputs := rfl

@[simp] theorem refuse_cfg (r : Reason) : (refuse r s).cfg = s.cfg := rfl
@[simp] theorem refuse_addressSpace (r : Reason) : (refuse r s).addressSpace = s.addressSpace := rfl
@[simp] theorem refuse_bootMode (r : Reason) : (refuse r s).bootMode = s.bootMode := rfl
@[simp] theorem refuse_dma (r : Reason) : (refuse r s).dma = s.dma := rfl
@[simp] theorem refuse_cart (r : Reason) : (refuse r s).cart = s.cart := rfl
@[simp] theorem refuse_fault (r : Reason) : (refuse r s).fault = s.fault := rfl
@[simp] theorem refuse_constructed (r : Reason) : (refuse r s).constructed = s.constructed := rfl
@[simp] theorem refuse_vram (r : Reason) : (refuse r s).vram = s.vram := rfl
@[simp] theorem refuse_oam (r : Reason) : (refuse r s).oam = s.oam := rfl
@[simp] theorem refuse_timer (r : Reason) : (refuse r s).timer = s.timer := rfl
@[simp] theorem refuse_refusalMark (r : Reason) : (refuse r s).refusalMark = true := rfl
@[simp] theorem refuse_response (r : Reason) : (refuse r s).response = some (.refused r) := rfl
@[simp] theorem refuse_inputs (r : Reason) : (refuse r s).inputs = s.inputs := rfl

@[simp] theorem zeroFill_cfg : (zeroFill s).cfg = s.cfg := rfl
@[simp] theorem zeroFill_addressSpace : (zeroFill s).addressSpace = [] := rfl
@[simp] theorem zeroFill_bootMode : (zeroFill s).bootMode = s.bootMode := rfl
@[simp] theorem zeroFill_dma : (zeroFill s).dma = s.dma := rfl
@[simp] theorem zeroFill_cart : (zeroFill s).cart = s.cart := rfl
@[simp] theorem zeroFill_fault : (zeroFill s).fault = s.fault := rfl
@[simp] theorem zeroFill_constructed : (zeroFill s).constructed = s.constructed := rfl
@[simp] theorem zeroFill_vram : (zeroFill s).vram = s.vram := rfl
@[simp] theorem zeroFill_oam : (zeroFill s).oam = s.oam := rfl
@[simp] theorem zeroFill_timer : (zeroFill s).timer = s.timer := rfl
@[simp] theorem zeroFill_refusalMark : (zeroFill s).refusalMark = s.refusalMark := rfl
@[simp] theorem zeroFill_response : (zeroFill s).response = s.response := rfl
@[simp] theorem zeroFill_inputs : (zeroFill s).inputs = s.inputs := rfl

@[simp] theorem latch_cfg : (latch s).cfg = s.cfg := rfl
@[simp] theorem latch_addressSpace : (latch s).addressSpace = [] := rfl
@[simp] theorem latch_bootMode : (latch s).bootMode = false := rfl
@[simp] theorem latch_dma : (latch s).dma = s.dma := rfl
@[simp] theorem latch_cart : (latch s).cart = s.cart := rfl
@[simp] theorem latch_fault : (latch s).fault = s.fault := rfl
@[simp] theorem latch_constructed : (latch s).constructed = s.constructed := rfl
@[simp] theorem latch_vram : (latch s).vram = s.vram := rfl
@[simp] theorem latch_oam : (latch s).oam = s.oam := rfl
@[simp] theorem latch_timer : (latch s).timer = s.timer := rfl
@[simp] theorem latch_refusalMark : (latch s).refusalMark = s.refusalMark := rfl
@[simp] theorem latch_response : (latch s).response = s.response := rfl
@[simp] theorem latch_inputs : (latch s).inputs = s.inputs := rfl

@[simp] theorem constructed_cfg (b : Bool) (c : Option Cart) : (constructed b c s).cfg = s.cfg := rfl
@[simp] theorem constructed_addressSpace (b : Bool) (c : Option Cart) : (constructed b c s).addressSpace = [] := rfl
@[simp] theorem constructed_bootMode (b : Bool) (c : Option Cart) : (constructed b c s).bootMode = b := rfl
@[simp] theorem constructed_dma (b : Bool) (c : Option Cart) : (constructed b c s).dma = dmaIdle := rfl
@[simp] theorem constructed_cart (b : Bool) (c : Option Cart) : (constructed b c s).cart = c := rfl
@[simp] theorem constructed_fault (b : Bool) (c : Option Cart) : (constructed b c s).fault = none := rfl
@[simp] theorem constructed_constructed (b : Bool) (c : Option Cart) : (constructed b c s).constructed = true := rfl
@[simp] theorem constructed_vram (b : Bool) (c : Option Cart) : (constructed b c s).vram = s.vram := rfl
@[simp] theorem constructed_oam (b : Bool) (c : Option Cart) : (constructed b c s).oam = s.oam := rfl
@[simp] theorem constructed_timer (b : Bool) (c : Option Cart) : (constructed b c s).timer = s.timer := rfl
@[simp] theorem constructed_refusalMark (b : Bool) (c : Option Cart) : (constructed b c s).refusalMark = s.refusalMark := rfl
@[simp] theorem constructed_response (b : Bool) (c : Option Cart) : (constructed b c s).response = some .ok := rfl
@[simp] theorem constructed_inputs (b : Bool) (c : Option Cart) : (constructed b c s).inputs = s.inputs := rfl

@[simp] theorem writeStore_cfg (a : Addr) (v : Byte) : (writeStore a v s).cfg = s.cfg := rfl
@[simp] theorem writeStore_addressSpace (a : Addr) (v : Byte) : (writeStore a v s).addressSpace = Mem.write s.addressSpace a.toNat v := rfl
@[simp] theorem writeStore_bootMode (a : Addr) (v : Byte) : (writeStore a v s).bootMode = s.bootMode := rfl
@[simp] theorem writeStore_dma (a : Addr) (v : Byte) : (writeStore a v s).dma = s.dma := rfl
@[simp] theorem writeStore_cart (a : Addr) (v : Byte) : (writeStore a v s).cart = s.cart := rfl
@[simp] theorem writeStore_fault (a : Addr) (v : Byte) : (writeStore a v s).fault = s.fault := rfl
@[simp] theorem writeStore_constructed (a : Addr) (v : Byte) : (writeStore a v s).constructed = s.constructed := rfl
@[simp] theorem writeStore_vram (a : Addr) (v : Byte) : (writeStore a v s).vram = s.vram := rfl
@[simp] theorem writeStore_oam (a : Addr) (v : Byte) : (writeStore a v s).oam = s.oam := rfl
@[simp] theorem writeStore_timer (a : Addr) (v : Byte) : (writeStore a v s).timer = s.timer := rfl
@[simp] theorem writeStore_refusalMark (a : Addr) (v : Byte) : (writeStore a v s).refusalMark = s.refusalMark := rfl
@[simp] theorem writeStore_response (a : Addr) (v : Byte) : (writeStore a v s).response = some .ok := rfl
@[simp] theorem writeStore_inputs (a : Addr) (v : Byte) : (writeStore a v s).inputs = s.inputs := rfl

@[simp] theorem writeVram_cfg (a : Addr) (v : Byte) : (writeVram a v s).cfg = s.cfg := rfl
@[simp] theorem writeVram_addressSpace (a : Addr) (v : Byte) : (writeVram a v s).addressSpace = s.addressSpace := rfl
@[simp] theorem writeVram_bootMode (a : Addr) (v : Byte) : (writeVram a v s).bootMode = s.bootMode := rfl
@[simp] theorem writeVram_dma (a : Addr) (v : Byte) : (writeVram a v s).dma = s.dma := rfl
@[simp] theorem writeVram_cart (a : Addr) (v : Byte) : (writeVram a v s).cart = s.cart := rfl
@[simp] theorem writeVram_fault (a : Addr) (v : Byte) : (writeVram a v s).fault = s.fault := rfl
@[simp] theorem writeVram_constructed (a : Addr) (v : Byte) : (writeVram a v s).constructed = s.constructed := rfl
@[simp] theorem writeVram_vram (a : Addr) (v : Byte) : (writeVram a v s).vram = Mem.write s.vram (offsetIn s.cfg.vram a) v := rfl
@[simp] theorem writeVram_oam (a : Addr) (v : Byte) : (writeVram a v s).oam = s.oam := rfl
@[simp] theorem writeVram_timer (a : Addr) (v : Byte) : (writeVram a v s).timer = s.timer := rfl
@[simp] theorem writeVram_refusalMark (a : Addr) (v : Byte) : (writeVram a v s).refusalMark = s.refusalMark := rfl
@[simp] theorem writeVram_response (a : Addr) (v : Byte) : (writeVram a v s).response = some .ok := rfl
@[simp] theorem writeVram_inputs (a : Addr) (v : Byte) : (writeVram a v s).inputs = s.inputs := rfl

@[simp] theorem writeOam_cfg (a : Addr) (v : Byte) : (writeOam a v s).cfg = s.cfg := rfl
@[simp] theorem writeOam_addressSpace (a : Addr) (v : Byte) : (writeOam a v s).addressSpace = s.addressSpace := rfl
@[simp] theorem writeOam_bootMode (a : Addr) (v : Byte) : (writeOam a v s).bootMode = s.bootMode := rfl
@[simp] theorem writeOam_dma (a : Addr) (v : Byte) : (writeOam a v s).dma = s.dma := rfl
@[simp] theorem writeOam_cart (a : Addr) (v : Byte) : (writeOam a v s).cart = s.cart := rfl
@[simp] theorem writeOam_fault (a : Addr) (v : Byte) : (writeOam a v s).fault = s.fault := rfl
@[simp] theorem writeOam_constructed (a : Addr) (v : Byte) : (writeOam a v s).constructed = s.constructed := rfl
@[simp] theorem writeOam_vram (a : Addr) (v : Byte) : (writeOam a v s).vram = s.vram := rfl
@[simp] theorem writeOam_oam (a : Addr) (v : Byte) : (writeOam a v s).oam = Mem.write s.oam (offsetIn s.cfg.oam a) v := rfl
@[simp] theorem writeOam_timer (a : Addr) (v : Byte) : (writeOam a v s).timer = s.timer := rfl
@[simp] theorem writeOam_refusalMark (a : Addr) (v : Byte) : (writeOam a v s).refusalMark = s.refusalMark := rfl
@[simp] theorem writeOam_response (a : Addr) (v : Byte) : (writeOam a v s).response = some .ok := rfl
@[simp] theorem writeOam_inputs (a : Addr) (v : Byte) : (writeOam a v s).inputs = s.inputs := rfl

@[simp] theorem writeTimer_cfg (a : Addr) (v : Byte) : (writeTimer a v s).cfg = s.cfg := rfl
@[simp] theorem writeTimer_addressSpace (a : Addr) (v : Byte) : (writeTimer a v s).addressSpace = s.addressSpace := rfl
@[simp] theorem writeTimer_bootMode (a : Addr) (v : Byte) : (writeTimer a v s).bootMode = s.bootMode := rfl
@[simp] theorem writeTimer_dma (a : Addr) (v : Byte) : (writeTimer a v s).dma = s.dma := rfl
@[simp] theorem writeTimer_cart (a : Addr) (v : Byte) : (writeTimer a v s).cart = s.cart := rfl
@[simp] theorem writeTimer_fault (a : Addr) (v : Byte) : (writeTimer a v s).fault = s.fault := rfl
@[simp] theorem writeTimer_constructed (a : Addr) (v : Byte) : (writeTimer a v s).constructed = s.constructed := rfl
@[simp] theorem writeTimer_vram (a : Addr) (v : Byte) : (writeTimer a v s).vram = s.vram := rfl
@[simp] theorem writeTimer_oam (a : Addr) (v : Byte) : (writeTimer a v s).oam = s.oam := rfl
@[simp] theorem writeTimer_timer (a : Addr) (v : Byte) : (writeTimer a v s).timer = Config.timerWrite s.timer a v := rfl
@[simp] theorem writeTimer_refusalMark (a : Addr) (v : Byte) : (writeTimer a v s).refusalMark = s.refusalMark := rfl
@[simp] theorem writeTimer_response (a : Addr) (v : Byte) : (writeTimer a v s).response = some .ok := rfl
@[simp] theorem writeTimer_inputs (a : Addr) (v : Byte) : (writeTimer a v s).inputs = s.inputs := rfl

@[simp] theorem dmaOam_cfg (p : Byte) : (dmaOam p s).cfg = s.cfg := rfl
@[simp] theorem dmaOam_addressSpace (p : Byte) : (dmaOam p s).addressSpace = s.addressSpace := rfl
@[simp] theorem dmaOam_bootMode (p : Byte) : (dmaOam p s).bootMode = s.bootMode := rfl
@[simp] theorem dmaOam_dma (p : Byte) : (dmaOam p s).dma = dmaStarted := rfl
@[simp] theorem dmaOam_cart (p : Byte) : (dmaOam p s).cart = s.cart := rfl
@[simp] theorem dmaOam_fault (p : Byte) : (dmaOam p s).fault = s.fault := rfl
@[simp] theorem dmaOam_constructed (p : Byte) : (dmaOam p s).constructed = s.constructed := rfl
@[simp] theorem dmaOam_vram (p : Byte) : (dmaOam p s).vram = s.vram := rfl
@[simp] theorem dmaOam_oam (p : Byte) : (dmaOam p s).oam = s.oam := rfl
@[simp] theorem dmaOam_timer (p : Byte) : (dmaOam p s).timer = s.timer := rfl
@[simp] theorem dmaOam_refusalMark (p : Byte) : (dmaOam p s).refusalMark = s.refusalMark := rfl
@[simp] theorem dmaOam_response (p : Byte) : (dmaOam p s).response = some .ok := rfl
@[simp] theorem dmaOam_inputs (p : Byte) : (dmaOam p s).inputs = s.inputs := rfl

end Sys2Proof.Machine
end

