-- ==== Sys2Proof/Laws/Ops.lean ====
section
/-! SUPPORT. What each shared operation can do, said once: the guards, the class rows over their transactions, and the
cases of the read path, the trigger and the write path. -/

namespace Sys2Proof.Machine

open Sys2Proof

/-! ### The guards -/

theorem transact_ready {k : State → State} {s : State} (h : Ready s) : transact k s = .next (k s) := by
  simp [transact, h.1, h.2]

theorem transact_unbuilt {k : State → State} {s : State} (h : s.fault = none) (hc : s.constructed = false) :
    transact k s = .next (refuse .notConstructed s) := by
  simp [transact, h, hc]

theorem transact_stuck {k : State → State} {s : State} (h : s.fault ≠ none) : transact k s = .fault .stuck := by
  simp [transact, Option.isSome_iff_ne_none.mpr h]

/-- If a transaction answers a next state, it had its effect, or it was refused before the construction. -/
theorem transact_cases {k : State → State} {s t : State} (h : transact k s = .next t) :
    (Ready s ∧ t = k s) ∨ (s.fault = none ∧ s.constructed = false ∧ t = refuse .notConstructed s) := by
  cases hf : s.fault <;> cases hc : s.constructed <;> simp [transact, hf, hc, Ready] at h ⊢ <;> exact h.symm

theorem construct_ready {k : State → State} {s : State} (h : Constructible s) : construct k s = .next (k s) := by
  simp [construct, h.1, h.2.1, h.2.2]

theorem construct_built {k : State → State} {s : State} (h : Ready s) :
    construct k s = .next (refuse .alreadyConstructed s) := by
  simp [construct, h.1, h.2]

theorem construct_stuck {k : State → State} {s : State} (h : s.fault ≠ none) : construct k s = .fault .stuck := by
  simp [construct, Option.isSome_iff_ne_none.mpr h]

/-- If a construction answers a next state, it had its effect, or the block was constructed already. -/
theorem construct_cases {k : State → State} {s t : State} (h : construct k s = .next t) :
    (Constructible s ∧ t = k s) ∨ (Ready s ∧ t = refuse .alreadyConstructed s) := by
  cases hf : s.fault <;> cases hc : s.constructed <;> cases hv : configValid s.cfg <;>
    simp [construct, hf, hc, hv, Ready, Constructible] at h ⊢ <;> exact h.symm

theorem unknown_ready {s : State} (h : s.fault = none) : unknown s = .next (refuse .unknownOp s) := by
  simp [unknown, h]

theorem unknown_stuck {s : State} (h : s.fault ≠ none) : unknown s = .fault .stuck := by
  simp [unknown, Option.isSome_iff_ne_none.mpr h]

/-- If a reserved op code answers a next state, it was refused. -/
theorem unknown_cases {s t : State} (h : unknown s = .next t) : s.fault = none ∧ t = refuse .unknownOp s := by
  cases hf : s.fault <;> simp [unknown, hf] at h ⊢
  exact h.symm

/-! ### Class rows are their transactions -/

theorem readAs_eq {k : ReadClass} {body : Addr → State → State} {a : Addr} {s : State}
    (h : readClass s.cfg s.bootMode a = k → readByte a s = body a s) : readAs k body a s = readByte a s := by
  unfold readAs
  split
  · rename_i hk; exact (h hk).symm
  · rfl

theorem writeAs_eq {k : WriteClass} {body : Addr → Byte → State → State} {a : Addr} {v : Byte} {s : State}
    (h : writeClass s.cfg s.bootMode a v = k → writeByte a v s = body a v s) :
    writeAs k body a v s = writeByte a v s := by
  unfold writeAs
  split
  · rename_i hk; exact (h hk).symm
  · rfl

theorem triggerAs_eq {k : DmaClass} {body : Byte → State → State} {p : Byte} {s : State}
    (h : s.dma.active = false → dmaClass s.cfg (dmaSource p) = k → dmaTrigger p s = body p s) :
    triggerAs k body p s = dmaTrigger p s := by
  unfold triggerAs
  split
  · rename_i hk; exact (h hk.1 hk.2).symm
  · rfl

@[simp] theorem regJoyp_ne_regDma : ¬regJoyp = regDma := by decide
@[simp] theorem regBoot_ne_regDma : ¬regBoot = regDma := by decide
@[simp] theorem regBoot_ne_regJoyp : ¬regBoot = regJoyp := by decide

theorem writeByte_dma (p : Byte) (s : State) : writeByte regDma p s = dmaTrigger p s := by
  simp [writeByte, writeClass]

theorem writeByte_joypad (v : Byte) (s : State) : writeByte regJoyp v s = writeJoypad v s := by
  simp [writeByte, writeClass]

/-! ### One owner at a time -/

theorem readByte_boot {a : Addr} {s : State} (h : readClass s.cfg s.bootMode a = .boot) :
    readByte a s = readBoot a s := by simp only [readByte, h]

theorem readByte_cartRom0 {a : Addr} {s : State} (h : readClass s.cfg s.bootMode a = .cartRom0) :
    readByte a s = readCart a s := by simp only [readByte, h]

theorem readByte_cartRomx {a : Addr} {s : State} (h : readClass s.cfg s.bootMode a = .cartRomx) :
    readByte a s = readCart a s := by simp only [readByte, h]

theorem readByte_cartEram {a : Addr} {s : State} (h : readClass s.cfg s.bootMode a = .cartEram) :
    readByte a s = readCart a s := by simp only [readByte, h]

theorem readByte_vram {a : Addr} {s : State} (h : readClass s.cfg s.bootMode a = .vram) :
    readByte a s = readVram a s := by simp only [readByte, h]

theorem readByte_oam {a : Addr} {s : State} (h : readClass s.cfg s.bootMode a = .oam) :
    readByte a s = readOam a s := by simp only [readByte, h]

theorem readByte_store {a : Addr} {s : State} (h : readClass s.cfg s.bootMode a = .store) :
    readByte a s = readStore a s := by simp only [readByte, h]

/-- A write whose class is one of the range table's goes through steps 4 and 5. -/
theorem writeByte_routed {k : WriteClass} {a : Addr} {v : Byte} {s : State}
    (h : writeClass s.cfg s.bootMode a v = k) (h1 : k ≠ .dmaTrigger) (h2 : k ≠ .joypad) (h3 : k ≠ .bootDisable) :
    rangeClass s.cfg a = k ∧ writeByte a v s = writeRouted a v s := by
  have hr : rangeClass s.cfg a = k := by
    unfold writeClass at h
    split_ifs at h <;> simp_all
  refine ⟨hr, ?_⟩
  unfold writeByte
  rw [h]
  cases k <;> simp_all

theorem writeByte_vram {a : Addr} {v : Byte} {s : State} (h : writeClass s.cfg s.bootMode a v = .vram) :
    writeByte a v s = writeVram a v s := by
  obtain ⟨hr, hw⟩ := writeByte_routed h (by decide) (by decide) (by decide)
  rw [hw, writeRouted, hr]

theorem writeByte_oam {a : Addr} {v : Byte} {s : State} (h : writeClass s.cfg s.bootMode a v = .oam) :
    writeByte a v s = writeOam a v s := by
  obtain ⟨hr, hw⟩ := writeByte_routed h (by decide) (by decide) (by decide)
  rw [hw, writeRouted, hr]

theorem writeByte_timer {a : Addr} {v : Byte} {s : State} (h : writeClass s.cfg s.bootMode a v = .timer) :
    writeByte a v s = writeTimer a v s := by
  obtain ⟨hr, hw⟩ := writeByte_routed h (by decide) (by decide) (by decide)
  rw [hw, writeRouted, hr]

theorem writeByte_cartRom0 {a : Addr} {v : Byte} {s : State} (h : writeClass s.cfg s.bootMode a v = .cartRom0) :
    writeByte a v s = writeCart a v s := by
  obtain ⟨hr, hw⟩ := writeByte_routed h (by decide) (by decide) (by decide)
  rw [hw, writeRouted, hr]

theorem writeByte_cartRomx {a : Addr} {v : Byte} {s : State} (h : writeClass s.cfg s.bootMode a v = .cartRomx) :
    writeByte a v s = writeCart a v s := by
  obtain ⟨hr, hw⟩ := writeByte_routed h (by decide) (by decide) (by decide)
  rw [hw, writeRouted, hr]

theorem writeByte_cartEram {a : Addr} {v : Byte} {s : State} (h : writeClass s.cfg s.bootMode a v = .cartEram) :
    writeByte a v s = writeCart a v s := by
  obtain ⟨hr, hw⟩ := writeByte_routed h (by decide) (by decide) (by decide)
  rw [hw, writeRouted, hr]

theorem writeByte_store {a : Addr} {v : Byte} {s : State} (h : writeClass s.cfg s.bootMode a v = .store) :
    writeByte a v s = writeStore a v s := by
  obtain ⟨hr, hw⟩ := writeByte_routed h (by decide) (by decide) (by decide)
  rw [hw, writeRouted, hr]

theorem writeByte_bootDisable {a : Addr} {v : Byte} {s : State}
    (h : writeClass s.cfg s.bootMode a v = .bootDisable) : writeByte a v s = writeBootDisable s := by
  simp only [writeByte, h]

theorem dmaTrigger_rom0 {p : Byte} {s : State} (ha : s.dma.active = false)
    (h : dmaClass s.cfg (dmaSource p) = .rom0) : dmaTrigger p s = dmaRom0 p s := by
  simp only [dmaTrigger, ha, h, Bool.false_eq_true, if_false]

theorem dmaTrigger_romx {p : Byte} {s : State} (ha : s.dma.active = false)
    (h : dmaClass s.cfg (dmaSource p) = .romx) : dmaTrigger p s = dmaRomx p s := by
  simp only [dmaTrigger, ha, h, Bool.false_eq_true, if_false]

theorem dmaTrigger_vram {p : Byte} {s : State} (ha : s.dma.active = false)
    (h : dmaClass s.cfg (dmaSource p) = .vram) : dmaTrigger p s = dmaVram p s := by
  simp only [dmaTrigger, ha, h, Bool.false_eq_true, if_false]

theorem dmaTrigger_eram {p : Byte} {s : State} (ha : s.dma.active = false)
    (h : dmaClass s.cfg (dmaSource p) = .eram) : dmaTrigger p s = dmaEram p s := by
  simp only [dmaTrigger, ha, h, Bool.false_eq_true, if_false]

theorem dmaTrigger_oam {p : Byte} {s : State} (ha : s.dma.active = false)
    (h : dmaClass s.cfg (dmaSource p) = .oam) : dmaTrigger p s = dmaOam p s := by
  simp only [dmaTrigger, ha, h, Bool.false_eq_true, if_false]

theorem dmaTrigger_store {p : Byte} {s : State} (ha : s.dma.active = false)
    (h : dmaClass s.cfg (dmaSource p) = .store) : dmaTrigger p s = dmaStore p s := by
  simp only [dmaTrigger, ha, h, Bool.false_eq_true, if_false]

/-! ### The read path -/

/-- A read answers a byte and leaves all else, or finds no cartridge. -/
theorem readByte_cases (a : Addr) (s : State) :
    (∃ v, readByte a s = respond (.rdata v) s) ∨
      (s.cart = none ∧ readByte a s = raise (.noCartridge (.addr a)) s) := by
  have cart : (∃ v, readCart a s = respond (.rdata v) s) ∨
      (s.cart = none ∧ readCart a s = raise (.noCartridge (.addr a)) s) := by
    cases h : s.cart with
    | none => exact .inr ⟨rfl, by simp [readCart, h]⟩
    | some c => exact .inl ⟨_, by simp [readCart, h]; rfl⟩
  unfold readByte
  split
  · exact .inl ⟨_, rfl⟩
  · exact cart
  · exact cart
  · exact cart
  · exact .inl ⟨_, rfl⟩
  · exact .inl ⟨_, rfl⟩
  · exact .inl ⟨_, rfl⟩

/-! ### The trigger -/

/-- What the bounds check and the copy can do (R181, R180). -/
theorem dmaCopy_cases (len off : Nat) (block : List Byte) (p : Byte) (s : State) :
    (dmaCopy len off block p s = raise (.dmaSourceOutOfBounds p) s ∧ len < off + dmaLen) ∨
      (dmaCopy len off block p s = respond .ok { s with dma := dmaStarted, oam := Mem.writeList s.oam 0 block } ∧
        off + dmaLen ≤ len) := by
  unfold dmaCopy
  split
  · exact .inl ⟨rfl, by assumption⟩
  · exact .inr ⟨rfl, by omega⟩

/-- What a trigger can do: raise one of three faults and change nothing else, or take the lock and copy 160 bytes, or
take the lock alone. -/
theorem dmaTrigger_cases (p : Byte) (s : State) :
    (s.dma.active = true ∧ dmaTrigger p s = raise (.dmaAlreadyRunning p) s) ∨
      (s.dma.active = false ∧ s.cart = none ∧ dmaTrigger p s = raise (.noCartridge (.page p)) s) ∨
      (s.dma.active = false ∧ dmaTrigger p s = raise (.dmaSourceOutOfBounds p) s) ∨
      (s.dma.active = false ∧ dmaTrigger p s = dmaOam p s) ∨
      (s.dma.active = false ∧ ∃ block : List Byte, block.length = dmaLen ∧
        dmaTrigger p s = respond .ok { s with dma := dmaStarted, oam := Mem.writeList s.oam 0 block }) := by
  cases ha : s.dma.active with
  | true => exact .inl ⟨rfl, by simp [dmaTrigger, ha]⟩
  | false =>
    refine .inr ?_
    have copy : ∀ (len off : Nat) (block : List Byte), (off + dmaLen ≤ len → block.length = dmaLen) →
        dmaCopy len off block p s = raise (.dmaSourceOutOfBounds p) s ∨
        ∃ moved : List Byte, moved.length = dmaLen ∧ dmaCopy len off block p s
          = respond .ok { s with dma := dmaStarted, oam := Mem.writeList s.oam 0 moved } := by
      intro len off block hb
      rcases dmaCopy_cases len off block p s with h | h
      · exact .inl h.1
      · exact .inr ⟨block, hb h.2, h.1⟩
    have cart : ∀ (buf : Cart → List Byte) (off : Nat),
        (s.cart = none ∧ dmaFromCart buf off p s = raise (.noCartridge (.page p)) s) ∨
        dmaFromCart buf off p s = raise (.dmaSourceOutOfBounds p) s ∨
        ∃ block : List Byte, block.length = dmaLen ∧ dmaFromCart buf off p s
          = respond .ok { s with dma := dmaStarted, oam := Mem.writeList s.oam 0 block } := by
      intro buf off
      rcases Option.eq_none_or_eq_some s.cart with h | ⟨c, h⟩
      · exact .inl ⟨h, by simp only [dmaFromCart, h]⟩
      · have e : dmaFromCart buf off p s
            = dmaCopy (buf c).length off (((buf c).drop off).take dmaLen) p s := by simp only [dmaFromCart, h]
        rw [e]
        exact .inr (copy _ _ _ fun hlen => by rw [List.length_take, List.length_drop]; omega)
    unfold dmaTrigger
    simp only [ha, Bool.false_eq_true, if_false, true_and]
    split
    · rcases cart Cart.rom0 (offsetIn s.cfg.rom0 (dmaSource p)) with h | h | h
      · exact .inl h
      · exact .inr (.inl h)
      · exact .inr (.inr (.inr h))
    · rcases cart Cart.romx (offsetIn s.cfg.romx (dmaSource p)) with h | h | h
      · exact .inl h
      · exact .inr (.inl h)
      · exact .inr (.inr (.inr h))
    · rcases copy s.cfg.vramSize (offsetIn s.cfg.vram (dmaSource p))
        (Mem.slice s.vram (offsetIn s.cfg.vram (dmaSource p)) dmaLen) (fun _ => Mem.slice_length ..) with h | h
      · exact .inr (.inl h)
      · exact .inr (.inr (.inr h))
    · rcases cart Cart.ram (offsetIn s.cfg.eram (dmaSource p)) with h | h | h
      · exact .inl h
      · exact .inr (.inl h)
      · exact .inr (.inr (.inr h))
    · exact .inr (.inr (.inl rfl))
    · rcases copy asSize (dmaSource p).toNat (Mem.slice s.addressSpace (dmaSource p).toNat dmaLen)
        (fun _ => Mem.slice_length ..) with h | h
      · exact .inr (.inl h)
      · exact .inr (.inr (.inr h))

/-! ### The write path -/

/-- Steps 4 and 5 know the classes of the range table only. -/
theorem rangeClass_ne (c : Params) (a : Addr) :
    rangeClass c a ≠ .dmaTrigger ∧ rangeClass c a ≠ .joypad ∧ rangeClass c a ≠ .bootDisable := by
  unfold rangeClass
  split_ifs <;> simp

/-- What steps 4 and 5 can do (R144 to R148). -/
theorem writeRouted_cases (a : Addr) (v : Byte) (s : State) :
    (s.cfg.vram.contains a = true ∧ writeRouted a v s = writeVram a v s) ∨
      (s.cfg.oam.contains a = true ∧ writeRouted a v s = writeOam a v s) ∨
      (s.cfg.timer.contains a = true ∧ writeRouted a v s = writeTimer a v s) ∨
      (s.cart = none ∧ writeRouted a v s = raise (.noCartridge (.addr a)) s) ∨
      (∃ c, s.cart = some c ∧ writeRouted a v s = respond .ok { s with cart := some (Config.cartWrite c a v) }) ∨
      writeRouted a v s = writeStore a v s := by
  have cart : (s.cart = none ∧ writeCart a v s = raise (.noCartridge (.addr a)) s) ∨
      ∃ c, s.cart = some c ∧ writeCart a v s = respond .ok { s with cart := some (Config.cartWrite c a v) } := by
    cases h : s.cart with
    | none => exact .inl ⟨rfl, by simp [writeCart, h]⟩
    | some c => exact .inr ⟨c, rfl, by simp [writeCart, h]⟩
  unfold writeRouted rangeClass
  by_cases h1 : s.cfg.vram.contains a
  · exact .inl ⟨h1, by simp [h1]⟩
  by_cases h2 : s.cfg.oam.contains a
  · exact .inr (.inl ⟨h2, by simp [h1, h2]⟩)
  by_cases h3 : s.cfg.timer.contains a
  · exact .inr (.inr (.inl ⟨h3, by simp [h1, h2, h3]⟩))
  refine .inr (.inr (.inr ?_))
  by_cases h4 : s.cfg.rom0.contains a
  · simp only [h1, h2, h3, h4, Bool.false_eq_true, if_false, if_true]
    exact cart.imp_right .inl
  by_cases h5 : s.cfg.romx.contains a
  · simp only [h1, h2, h3, h4, h5, Bool.false_eq_true, if_false, if_true]
    exact cart.imp_right .inl
  by_cases h6 : s.cfg.eram.contains a
  · simp only [h1, h2, h3, h4, h5, h6, Bool.false_eq_true, if_false, if_true]
    exact cart.imp_right .inl
  · exact .inr (.inr (by simp [h1, h2, h3, h4, h5, h6]))

/-- What a byte write can do: start the engine, latch, or go through steps 4 and 5 (at 0xFF00 with the joypad value). -/
theorem writeByte_cases (a : Addr) (v : Byte) (s : State) :
    (a = regDma ∧ writeByte a v s = dmaTrigger v s) ∨
      (a = regJoyp ∧ writeByte a v s = writeRouted a (joypadValue v) s) ∨
      (a = regBoot ∧ v = bootDisableValue ∧ s.bootMode = true ∧ writeByte a v s = respond .ok (latch s)) ∨
      (a ≠ regDma ∧ a ≠ regJoyp ∧ writeByte a v s = writeRouted a v s) := by
  by_cases h1 : a = regDma
  · exact .inl ⟨h1, by subst h1; exact writeByte_dma v s⟩
  by_cases h2 : a = regJoyp
  · exact .inr (.inl ⟨h2, by subst h2; exact writeByte_joypad v s⟩)
  by_cases h3 : (s.bootMode && a == regBoot && v == bootDisableValue) = true
  · refine .inr (.inr (.inl ?_))
    simp only [Bool.and_eq_true, beq_iff_eq] at h3
    refine ⟨h3.1.2, h3.2, h3.1.1, ?_⟩
    simp [writeByte, writeClass, h3.1.1, h3.1.2, h3.2, writeBootDisable]
  · refine .inr (.inr (.inr ⟨h1, h2, ?_⟩))
    unfold writeByte
    rw [show writeClass s.cfg s.bootMode a v = rangeClass s.cfg a by
      rw [writeClass, if_neg h1, if_neg h2, if_neg h3]]
    have := rangeClass_ne s.cfg a
    split <;> simp_all

/-- Before a trigger, a word write's second byte is written only if the first did not fault (R149, R207). -/
theorem writeWord_cases (a : Addr) (v : Word) (s : State) :
    ((writeByte a (lowByte v) s).fault ≠ none ∧ writeWord a v s = writeByte a (lowByte v) s) ∨
      ((writeByte a (lowByte v) s).fault = none ∧
        writeWord a v s = writeByte (nextAddr a) (highByte v) (writeByte a (lowByte v) s)) := by
  unfold writeWord
  cases h : (writeByte a (lowByte v) s).fault <;> simp [h]

/-- Of the fields that are neither memory nor the block's flags, a byte write keeps all. -/
theorem writeByte_keeps (a : Addr) (v : Byte) (s : State) :
    (writeByte a v s).cfg = s.cfg ∧ (writeByte a v s).refusalMark = s.refusalMark ∧
      (writeByte a v s).constructed = s.constructed ∧ (writeByte a v s).inputs = s.inputs := by
  rcases writeByte_cases a v s with ⟨-, h⟩ | ⟨-, h⟩ | ⟨-, -, -, h⟩ | ⟨-, -, h⟩ <;> rw [h]
  · rcases dmaTrigger_cases v s with ⟨-, h⟩ | ⟨-, -, h⟩ | ⟨-, h⟩ | ⟨-, h⟩ | ⟨-, b, -, h⟩ <;> rw [h] <;> simp
  · rcases writeRouted_cases a (joypadValue v) s with
      ⟨-, h⟩ | ⟨-, h⟩ | ⟨-, h⟩ | ⟨-, h⟩ | ⟨c, -, h⟩ | h <;> rw [h] <;> simp
  · simp
  · rcases writeRouted_cases a v s with
      ⟨-, h⟩ | ⟨-, h⟩ | ⟨-, h⟩ | ⟨-, h⟩ | ⟨c, -, h⟩ | h <;> rw [h] <;> simp

/-- Steps 4 and 5 raise `NoCartridge` and do nothing else, or end `OK` without a fault. -/
theorem writeRouted_raises_or_ok (a : Addr) (v : Byte) {s : State} (hf : s.fault = none) :
    (∃ f, writeRouted a v s = raise f s) ∨
      ((writeRouted a v s).fault = none ∧ (writeRouted a v s).response = some .ok) := by
  rcases writeRouted_cases a v s with ⟨-, h⟩ | ⟨-, h⟩ | ⟨-, h⟩ | ⟨-, h⟩ | ⟨c, -, h⟩ | h
  · exact .inr (by simp [h, hf])
  · exact .inr (by simp [h, hf])
  · exact .inr (by simp [h, hf])
  · exact .inl ⟨_, h⟩
  · exact .inr (by simp [h, hf])
  · exact .inr (by simp [h, hf])

/-- A byte write raises a fault and does nothing else, or ends `OK` without one (R207). -/
theorem writeByte_raises_or_ok (a : Addr) (v : Byte) {s : State} (hf : s.fault = none) :
    (∃ f, writeByte a v s = raise f s) ∨
      ((writeByte a v s).fault = none ∧ (writeByte a v s).response = some .ok) := by
  rcases writeByte_cases a v s with ⟨-, h⟩ | ⟨-, h⟩ | ⟨-, -, -, h⟩ | ⟨-, -, h⟩ <;> rw [h]
  · rcases dmaTrigger_cases v s with ⟨-, h⟩ | ⟨-, -, h⟩ | ⟨-, h⟩ | ⟨-, h⟩ | ⟨-, b, -, h⟩
    · exact .inl ⟨_, h⟩
    · exact .inl ⟨_, h⟩
    · exact .inl ⟨_, h⟩
    · exact .inr (by simp [h, hf])
    · exact .inr (by simp [h, hf])
  · exact writeRouted_raises_or_ok a (joypadValue v) hf
  · exact .inr (by simp [hf])
  · exact writeRouted_raises_or_ok a v hf

/-! ### What a transaction can do -/

/-- A transaction's effect once it is accepted, by its kind; a class row's is not listed here. -/
inductive Effect : Instr → State → State → Prop where
  | readByte (a : Addr) (s : State) : Effect (.readByte a) s (readByte a s)
  | writeByte (a : Addr) (v : Byte) (s : State) : Effect (.writeByte a v) s (writeByte a v s)
  | writeWord (a : Addr) (v : Word) (s : State) : Effect (.writeWord a v) s (writeWord a v s)
  | writeBlock (a : Addr) (bytes : List Byte) (s : State) : Effect (.writeBlock a bytes) s (writeBlock a bytes s)
  | dmaActive (s : State) : Effect .dmaActive s (respond (.active s.dma.active) s)
  | dmaAdvance (n : Nat) (s : State) :
    Effect (.dmaAdvance n) s (respond .ok { s with dma := dmaElapse s.cfg.dmaCycles n s.dma })

/-- If a transaction kind answers a next state, the block held no fault, and the transaction was refused and changed
nothing but the mark, or had its effect, or constructed the block (or failed to). -/
theorem exec_cases {i : Instr} {s t : State} (hi : i.core = i) (h : exec i s = .next t) :
    s.fault = none ∧
      ((∃ r, t = refuse r s) ∨ (Ready s ∧ Effect i s t) ∨
        (Constructible s ∧ ((i = .constructBlank ∧ t = buildBlank s) ∨
          ∃ image, i = .constructCart image ∧ t = buildCart image s))) := by
  have go : ∀ k : State → State, (∀ u, Effect i u (k u)) → transact k s = .next t →
      s.fault = none ∧ ((∃ r, t = refuse r s) ∨ (Ready s ∧ Effect i s t) ∨
        (Constructible s ∧ ((i = .constructBlank ∧ t = buildBlank s) ∨
          ∃ image, i = .constructCart image ∧ t = buildCart image s))) := by
    intro k hk hn
    rcases transact_cases hn with ⟨hr, ht⟩ | ⟨hf, -, ht⟩
    · exact ⟨hr.1, .inr (.inl ⟨hr, ht ▸ hk s⟩)⟩
    · exact ⟨hf, .inl ⟨_, ht⟩⟩
  cases i <;> try (simp [Instr.core] at hi; done)
  case readByte a => exact go _ (.readByte a) h
  case writeByte a v => exact go _ (.writeByte a v) h
  case writeWord a v => exact go _ (.writeWord a v) h
  case writeBlock a bytes => exact go _ (.writeBlock a bytes) h
  case dmaActive => exact go _ .dmaActive h
  case dmaAdvance n => exact go _ (.dmaAdvance n) h
  case constructBlank =>
    rcases construct_cases h with ⟨hc, ht⟩ | ⟨hr, ht⟩
    · exact ⟨hc.1, .inr (.inr ⟨hc, .inl ⟨rfl, ht⟩⟩)⟩
    · exact ⟨hr.1, .inl ⟨_, ht⟩⟩
  case constructCart image =>
    rcases construct_cases h with ⟨hc, ht⟩ | ⟨hr, ht⟩
    · exact ⟨hc.1, .inr (.inr ⟨hc, .inr ⟨image, rfl, ht⟩⟩)⟩
    · exact ⟨hr.1, .inl ⟨_, ht⟩⟩
  case reserved op addr data att =>
    obtain ⟨hf, ht⟩ := unknown_cases h
    exact ⟨hf, .inl ⟨_, ht⟩⟩

/-- What `CONSTRUCT_CART` can do: raise a fault and change nothing else, or build the block with the collaborator's
cartridge. -/
theorem buildCart_cases (image : List Byte) (s : State) :
    (∃ f, buildCart image s = raise f s) ∨ ∃ c, buildCart image s = constructed true (some c) s := by
  unfold buildCart
  split
  · exact .inl ⟨_, rfl⟩
  · dsimp only
    split
    · exact .inl ⟨_, rfl⟩
    · split
      · exact .inl ⟨_, rfl⟩
      · split
        · exact .inl ⟨_, rfl⟩
        · exact .inr ⟨_, rfl⟩

/-- Decoding answers transaction kinds only. -/
theorem decode_core {r : Request} {i : Instr} (h : decode r = .ok i) : i.core = i := by
  unfold decode at h
  dsimp only at h
  split at h <;> (try split at h) <;> (try split at h) <;> cases h <;> rfl

/-- If the step answers a next state, no fault stood, and it took a collaborator's change, refused an ill-formed
request, or ran a transaction. -/
theorem step_cases {s t : State} (h : step s = .next t) :
    s.fault = none ∧
      ((∃ e rest, s.inputs = .agent e :: rest ∧ t = agentStep e { s with inputs := rest }) ∨
        (∃ r rest reason, s.inputs = .transaction r :: rest ∧ decode r = .error reason ∧
          t = refuse reason { s with inputs := rest }) ∨
        (∃ r rest i, s.inputs = .transaction r :: rest ∧ decode r = .ok i ∧ i.core = i ∧
          exec i { s with inputs := rest } = .next t)) := by
  rcases Option.eq_none_or_eq_some s.fault with hf | ⟨f, hf⟩
  · refine ⟨hf, ?_⟩
    have hs : s.fault.isSome = false := by simp [hf]
    rcases hi : s.inputs with _ | ⟨r | e, rest⟩
    · simp [step, fetch, hs, hi] at h
    · cases hd : decode r with
      | error reason =>
        simp only [step, fetch, hs, hi, hd, Bool.false_eq_true, if_false] at h
        cases h
        exact .inr (.inl ⟨r, rest, reason, rfl, hd, rfl⟩)
      | ok i =>
        simp only [step, fetch, hs, hi, hd, Bool.false_eq_true, if_false] at h
        exact .inr (.inr ⟨r, rest, i, rfl, hd, decode_core hd, h⟩)
    · simp only [step, fetch, hs, hi, Bool.false_eq_true, if_false] at h
      cases h
      exact .inl ⟨e, rest, rfl, rfl⟩
  · simp [step, fetch, hf] at h

end Sys2Proof.Machine
end

