-- ==== Sys2Proof/Laws/PerInstr.lean ====
section
/-! SUPPORT. Per instruction: the op code of the encoded request is the one 30_encoding.md R81 gives its transaction
kind. -/

namespace Sys2Proof.Laws

open Sys2Proof

/-- R81's op code of a row's transaction kind; a reserved row carries its own. -/
def opCode : Instr → BitVec 4
  | .readByte _ => 0x0
  | .writeByte _ _ => 0x1
  | .writeWord _ _ => 0x2
  | .writeBlock _ _ => 0x3
  | .dmaActive => 0x4
  | .dmaAdvance _ => 0x5
  | .constructBlank => 0x6
  | .constructCart _ => 0x7
  | .reserved op _ _ _ => op
  | .readByteBoot _ => 0x0
  | .readByteCartRom0 _ => 0x0
  | .readByteCartRomx _ => 0x0
  | .readByteCartEram _ => 0x0
  | .readByteVram _ => 0x0
  | .readByteOam _ => 0x0
  | .readByteStore _ => 0x0
  | .writeByteDmaTrigger _ => 0x1
  | .writeByteJoypad _ => 0x1
  | .writeByteBootDisable => 0x1
  | .writeByteVram _ _ => 0x1
  | .writeByteOam _ _ => 0x1
  | .writeByteTimer _ _ => 0x1
  | .writeByteCartRom0 _ _ => 0x1
  | .writeByteCartRomx _ _ => 0x1
  | .writeByteCartEram _ _ => 0x1
  | .writeByteStore _ _ => 0x1
  | .dmaSrcRom0 _ => 0x1
  | .dmaSrcRomx _ => 0x1
  | .dmaSrcVram _ => 0x1
  | .dmaSrcEram _ => 0x1
  | .dmaSrcOam _ => 0x1
  | .dmaSrcStore _ => 0x1

/-- `W[35:32]` of the encoded request is R81's op code. -/
def EncodedOp.Statement (i : Instr) : Prop := (encode i).op = opCode i

theorem EncodedOp.readByte (a : Addr) : EncodedOp.Statement (.readByte a) := Request.pack_op ..
theorem EncodedOp.writeByte (a : Addr) (v : Byte) : EncodedOp.Statement (.writeByte a v) := Request.pack_op ..
theorem EncodedOp.writeWord (a : Addr) (v : Word) : EncodedOp.Statement (.writeWord a v) := Request.pack_op ..
theorem EncodedOp.writeBlock (a : Addr) (bytes : List Byte) : EncodedOp.Statement (.writeBlock a bytes) := Request.pack_op ..
theorem EncodedOp.dmaActive : EncodedOp.Statement .dmaActive := Request.pack_op ..
theorem EncodedOp.dmaAdvance (n : Nat) : EncodedOp.Statement (.dmaAdvance n) := Request.pack_op ..
theorem EncodedOp.constructBlank : EncodedOp.Statement .constructBlank := Request.pack_op ..
theorem EncodedOp.constructCart (image : List Byte) : EncodedOp.Statement (.constructCart image) := Request.pack_op ..
theorem EncodedOp.reserved (op : BitVec 4) (addr data : BitVec 16) (att : Attachment) : EncodedOp.Statement (.reserved op addr data att) := Request.pack_op ..
theorem EncodedOp.readByteBoot (a : Addr) : EncodedOp.Statement (.readByteBoot a) := Request.pack_op ..
theorem EncodedOp.readByteCartRom0 (a : Addr) : EncodedOp.Statement (.readByteCartRom0 a) := Request.pack_op ..
theorem EncodedOp.readByteCartRomx (a : Addr) : EncodedOp.Statement (.readByteCartRomx a) := Request.pack_op ..
theorem EncodedOp.readByteCartEram (a : Addr) : EncodedOp.Statement (.readByteCartEram a) := Request.pack_op ..
theorem EncodedOp.readByteVram (a : Addr) : EncodedOp.Statement (.readByteVram a) := Request.pack_op ..
theorem EncodedOp.readByteOam (a : Addr) : EncodedOp.Statement (.readByteOam a) := Request.pack_op ..
theorem EncodedOp.readByteStore (a : Addr) : EncodedOp.Statement (.readByteStore a) := Request.pack_op ..
theorem EncodedOp.writeByteDmaTrigger (p : Byte) : EncodedOp.Statement (.writeByteDmaTrigger p) := Request.pack_op ..
theorem EncodedOp.writeByteJoypad (v : Byte) : EncodedOp.Statement (.writeByteJoypad v) := Request.pack_op ..
theorem EncodedOp.writeByteBootDisable : EncodedOp.Statement .writeByteBootDisable := Request.pack_op ..
theorem EncodedOp.writeByteVram (a : Addr) (v : Byte) : EncodedOp.Statement (.writeByteVram a v) := Request.pack_op ..
theorem EncodedOp.writeByteOam (a : Addr) (v : Byte) : EncodedOp.Statement (.writeByteOam a v) := Request.pack_op ..
theorem EncodedOp.writeByteTimer (a : Addr) (v : Byte) : EncodedOp.Statement (.writeByteTimer a v) := Request.pack_op ..
theorem EncodedOp.writeByteCartRom0 (a : Addr) (v : Byte) : EncodedOp.Statement (.writeByteCartRom0 a v) := Request.pack_op ..
theorem EncodedOp.writeByteCartRomx (a : Addr) (v : Byte) : EncodedOp.Statement (.writeByteCartRomx a v) := Request.pack_op ..
theorem EncodedOp.writeByteCartEram (a : Addr) (v : Byte) : EncodedOp.Statement (.writeByteCartEram a v) := Request.pack_op ..
theorem EncodedOp.writeByteStore (a : Addr) (v : Byte) : EncodedOp.Statement (.writeByteStore a v) := Request.pack_op ..
theorem EncodedOp.dmaSrcRom0 (p : Byte) : EncodedOp.Statement (.dmaSrcRom0 p) := Request.pack_op ..
theorem EncodedOp.dmaSrcRomx (p : Byte) : EncodedOp.Statement (.dmaSrcRomx p) := Request.pack_op ..
theorem EncodedOp.dmaSrcVram (p : Byte) : EncodedOp.Statement (.dmaSrcVram p) := Request.pack_op ..
theorem EncodedOp.dmaSrcEram (p : Byte) : EncodedOp.Statement (.dmaSrcEram p) := Request.pack_op ..
theorem EncodedOp.dmaSrcOam (p : Byte) : EncodedOp.Statement (.dmaSrcOam p) := Request.pack_op ..
theorem EncodedOp.dmaSrcStore (p : Byte) : EncodedOp.Statement (.dmaSrcStore p) := Request.pack_op ..

end Sys2Proof.Laws
end

