-- ==== Sys2Proof/Tests/Slice0.lean ====
section
/-! SUPPORT. Tests: what well-formedness refuses, one written-out word per row of the opcode table, single steps from
95_test_vectors.md (V and S numbers), and a witness for the hypotheses of every statement. -/

namespace Sys2Proof.Tests

open Sys2Proof Sys2Proof.Machine

/-! ### Helpers -/

/-- The state after an instruction; itself where there is none. -/
def after (i : Instr) (s : State) : State :=
  match exec i s with
  | .next t => t
  | _ => s

/-- A small cartridge: 160 bytes 0xA5, 0x5A and 0x3C behind the three base pointers. -/
def card : Cart := ⟨List.replicate 160 0xA5, List.replicate 160 0x5A, List.replicate 160 0x3C, []⟩

/-- A cartridge whose first two buffers are just long enough for the last page of their ranges. -/
def longCard : Cart := ⟨List.replicate 0x4000 0xA5, List.replicate 0x4000 0x5A, List.replicate 0x2000 0, []⟩

/-- A constructed block without a cartridge, out of boot mode. -/
def blank : State := { State.reset with constructed := true }

/-- A constructed block with a cartridge, in boot mode (V6). -/
def backed : State := { State.reset with constructed := true, bootMode := true, cart := some card }

/-- `backed` with a transfer under way. -/
def busy : State := { backed with dma := ⟨true, 100⟩ }

/-- A parameter set that fails R52: `DMA_CYCLES` is 0. -/
def badParams : Params := { Params.dmg with dmaCycles := 0 }

/-! ### Well-formedness: an ill-formed term for each check -/

theorem test_wf_reserved_op : (Instr.reserved 0x7 0 0 .none).wellFormed = false := by decide
theorem test_wf_read_boot : (Instr.readByteBoot 0x0100#16).wellFormed = false := by decide
theorem test_wf_read_rom0 : (Instr.readByteCartRom0 0x4000#16).wellFormed = false := by decide
theorem test_wf_read_romx : (Instr.readByteCartRomx 0x8000#16).wellFormed = false := by decide
theorem test_wf_read_eram : (Instr.readByteCartEram 0xC000#16).wellFormed = false := by decide
theorem test_wf_read_vram : (Instr.readByteVram 0x7FFF#16).wellFormed = false := by decide
theorem test_wf_read_oam : (Instr.readByteOam 0xFEA0#16).wellFormed = false := by decide
theorem test_wf_read_store : (Instr.readByteStore 0xFE9F#16).wellFormed = false := by decide
theorem test_wf_write_vram : (Instr.writeByteVram 0xA000#16 0).wellFormed = false := by decide
theorem test_wf_write_oam : (Instr.writeByteOam 0xFDFF#16 0).wellFormed = false := by decide
theorem test_wf_write_timer : (Instr.writeByteTimer 0xFF08#16 0).wellFormed = false := by decide
theorem test_wf_write_rom0 : (Instr.writeByteCartRom0 0x4000#16 0).wellFormed = false := by decide
theorem test_wf_write_romx : (Instr.writeByteCartRomx 0x3FFF#16 0).wellFormed = false := by decide
theorem test_wf_write_eram : (Instr.writeByteCartEram 0x9FFF#16 0).wellFormed = false := by decide
theorem test_wf_write_store :
    ([0xFF46#16, 0xFF00#16, 0xFF04#16, 0x8000#16].map fun a => (Instr.writeByteStore a 0).wellFormed)
      = [false, false, false, false] := by decide
theorem test_wf_src_rom0 : (Instr.dmaSrcRom0 0x40#8).wellFormed = false := by decide
theorem test_wf_src_romx : (Instr.dmaSrcRomx 0x80#8).wellFormed = false := by decide
theorem test_wf_src_vram : (Instr.dmaSrcVram 0xA0#8).wellFormed = false := by decide
theorem test_wf_src_eram : (Instr.dmaSrcEram 0xC0#8).wellFormed = false := by decide
theorem test_wf_src_oam : (Instr.dmaSrcOam 0xFF#8).wellFormed = false := by decide
theorem test_wf_src_store : (Instr.dmaSrcStore 0xFE#8).wellFormed = false := by decide

/-! ### Decoding: a word per row, written out from 30_encoding.md R80, R81, R85 and R89 -/

/-- R89: op 0000, addr 0xC000, data 0. -/
theorem test_decode_read_byte :
    decode ⟨0b000011000000000000000000000000000000#36, .none⟩ = .ok (.readByte 0xC000#16) := by decide
/-- R89's DMA trigger: op 0001, addr 0xFF46, data 0x00C0. -/
theorem test_decode_write_byte :
    decode ⟨0b000111111111010001100000000011000000#36, .none⟩ = .ok (.writeByte 0xFF46#16 0xC0#8) := by decide
/-- P3: op 0010, addr 0xFEFF, data 0x30AA. -/
theorem test_decode_write_word :
    decode ⟨0b001011111110111111110011000010101010#36, .none⟩ = .ok (.writeWord 0xFEFF#16 0x30AA#16) := by decide
/-- R89: op 0011, addr 0xFFF0, data 0 and the payload. -/
theorem test_decode_write_block :
    decode ⟨0b001111111111111100000000000000000000#36, .payload [1, 2]⟩ = .ok (.writeBlock 0xFFF0#16 [1, 2]) := by
  decide
theorem test_decode_dma_active : decode ⟨0x400000000#36, .none⟩ = .ok .dmaActive := by decide
theorem test_decode_dma_advance : decode ⟨0x500000000#36, .count 64⟩ = .ok (.dmaAdvance 64) := by decide
theorem test_decode_construct_blank : decode ⟨0x600000000#36, .none⟩ = .ok .constructBlank := by decide
theorem test_decode_construct_cart : decode ⟨0x700000000#36, .payload [7]⟩ = .ok (.constructCart [7]) := by decide
/-- V19, and op 1111 with every field set. -/
theorem test_decode_reserved :
    decode ⟨0x800000000#36, .none⟩ = .ok (.reserved 0x8 0 0 .none) ∧
      decode ⟨0xF12345678#36, .count 3⟩ = .ok (.reserved 0xF 0x1234 0x5678 (.count 3)) := by decide
/-- V20, V21, and an attachment missing or in excess (R82). -/
theorem test_decode_bad_operand :
    [decode ⟨0x1C0000142#36, .none⟩, decode ⟨0x4C0000000#36, .none⟩, decode ⟨0x0C0000001#36, .none⟩,
      decode ⟨0x300000000#36, .none⟩, decode ⟨0x500000000#36, .payload []⟩, decode ⟨0x600000000#36, .count 0⟩,
      decode ⟨0x700000000#36, .none⟩] = List.replicate 7 (.error .badOperand) := by decide

/-- Format `RD`: K = 0000 ‖ addr, a key per row. -/
theorem test_decode_read_rows :
    decodeTableWord 24 0x00010 = some (.readByteBoot 0x0010#16) ∧
      decodeTableWord 24 0x00100 = some (.readByteCartRom0 0x0100#16) ∧
      decodeTableWord 24 0b00000100000000000000 = some (.readByteCartRomx 0x4000#16) ∧
      decodeTableWord 24 0b00001011111111111111 = some (.readByteCartEram 0xBFFF#16) ∧
      decodeTableWord 24 0x08001 = some (.readByteVram 0x8001#16) ∧
      decodeTableWord 24 0x0FE9F = some (.readByteOam 0xFE9F#16) ∧
      decodeTableWord 24 0x0FEA0 = some (.readByteStore 0xFEA0#16) := by decide
/-- Format `WR`: K = 0001 ‖ addr, a key per row; the value is 0x01 at 0xFF50 and 0x00 elsewhere (log entry 10). -/
theorem test_decode_write_rows :
    decodeTableWord 24 0b00011111111101000110 = some (.writeByteDmaTrigger 0) ∧
      decodeTableWord 24 0x1FF00 = some (.writeByteJoypad 0) ∧
      decodeTableWord 24 0x1FF50 = some .writeByteBootDisable ∧
      decodeTableWord 24 0x19FFF = some (.writeByteVram 0x9FFF#16 0) ∧
      decodeTableWord 24 0x1FE00 = some (.writeByteOam 0xFE00#16 0) ∧
      decodeTableWord 24 0x1FF07 = some (.writeByteTimer 0xFF07#16 0) ∧
      decodeTableWord 24 0x12000 = some (.writeByteCartRom0 0x2000#16 0) ∧
      decodeTableWord 24 0x17FFF = some (.writeByteCartRomx 0x7FFF#16 0) ∧
      decodeTableWord 24 0x1A000 = some (.writeByteCartEram 0xA000#16 0) ∧
      decodeTableWord 24 0x1C000 = some (.writeByteStore 0xC000#16 0) := by decide
/-- Format `DMASRC`: the page, a page per row. -/
theorem test_decode_page_rows :
    decodeTableWord 8 0b00111111 = some (.dmaSrcRom0 0x3F#8) ∧
      decodeTableWord 8 0b01000000 = some (.dmaSrcRomx 0x40#8) ∧
      decodeTableWord 8 0b10011111 = some (.dmaSrcVram 0x9F#8) ∧
      decodeTableWord 8 0xA0 = some (.dmaSrcEram 0xA0#8) ∧
      decodeTableWord 8 0xFE = some (.dmaSrcOam 0xFE#8) ∧
      decodeTableWord 8 0xFF = some (.dmaSrcStore 0xFF#8) := by decide
/-- The conditions of R85: out of boot mode no row is BOOT or BOOT_DISABLE, and the value must be 0x01 (V58, V61). -/
theorem test_decode_conditions :
    decodeRead false 0x00010#20 = .cartRom0 ∧ decodeWrite false 0x1FF50#20 0x01 = .store ∧
      decodeWrite true 0x1FF50#20 0x02 = .store := by decide
/-- P1 steps 3 and 9, P2 steps 3 and 5. -/
theorem test_encode :
    encode (.writeByte 0xC000#16 0x42) = ⟨0x1C0000042#36, .none⟩ ∧
      encode .writeByteBootDisable = ⟨0x1FF500001#36, .none⟩ ∧
      encode (.dmaSrcStore 0xC0) = ⟨0x1FF4600C0#36, .none⟩ ∧
      encode (.dmaAdvance 64) = ⟨0x500000000#36, .count 64⟩ := by decide

/-! ### Construction -/

/-- V1. -/
theorem test_construct_blank :
    (after .constructBlank State.reset).response = some .ok ∧
      (after .constructBlank State.reset).bootMode = Config.blankBootMode ∧
      (after .constructBlank State.reset).constructed = true := ⟨rfl, rfl, rfl⟩
/-- V12. -/
theorem test_construct_cart_short :
    (after (.constructCart (List.replicate 0x148 0)) State.reset).response
      = some (.fault (.corruptCartridge 0x148)) := by decide +kernel
/-- V11: the indicator is checked before the length. -/
theorem test_construct_cart_indicator :
    (after (.constructCart (List.replicate 0x148 0 ++ [9])) State.reset).response
      = some (.fault (.unsupportedRomSize 9)) := by decide +kernel
/-- V19. -/
theorem test_reserved : (after (.reserved 0x8 0 0 .none) blank).response = some (.refused .unknownOp) := by decide
/-- V17. -/
theorem test_not_constructed :
    after (.readByte 0) State.reset
      = { State.reset with refusalMark := true, response := some (.refused .notConstructed) } := rfl
/-- V18. -/
theorem test_already_constructed :
    (after .constructBlank blank).response = some (.refused .alreadyConstructed) := by decide

/-! ### Reads -/

/-- V31. -/
theorem test_read_boot : (after (.readByteBoot 0x00FF#16) backed).response = some (.rdata (Config.boot 0xFF#8)) := rfl
/-- V32: ROM0, not BOOT. -/
theorem test_read_rom0 :
    (after (.readByteCartRom0 0x0100#16) backed).response = some (.rdata (Config.cartRead card 0x0100#16)) := rfl
/-- V4. -/
theorem test_read_no_cart :
    (after (.readByte 0x0100#16) blank).response = some (.fault (.noCartridge (.addr 0x0100#16))) ∧
      (after (.readByte 0x0100#16) blank).fault.map FaultCode.number = some 0x10 := by decide
/-- V35. -/
theorem test_read_romx :
    (after (.readByteCartRomx 0x7FFF#16) backed).response = some (.rdata (Config.cartRead card 0x7FFF#16)) := rfl
/-- V36. -/
theorem test_read_eram :
    (after (.readByteCartEram 0xA000#16) backed).response = some (.rdata (Config.cartRead card 0xA000#16)) := rfl
/-- V37. -/
theorem test_read_vram :
    (after (.readByteVram 0x9FFF#16) { backed with vram := [(0x1FFF, 0x22)] }).response = some (.rdata 0x22) := by
  decide
/-- V38. -/
theorem test_read_oam :
    (after (.readByteOam 0xFE9F#16) { backed with oam := [(0x9F, 0x33)] }).response = some (.rdata 0x33) := by
  decide
/-- V39: STORE, not OAM. -/
theorem test_read_store :
    (after (.readByteStore 0xFEA0#16) { backed with addressSpace := [(0xFEA0, 0x44)] }).response
      = some (.rdata 0x44) := by decide
/-- V84: a read of the VRAM range never sees the hidden `AS` byte. -/
theorem test_read_byte :
    (after (.readByte 0x8000#16) { backed with addressSpace := [(0x8000, 0x55)] }).response = some (.rdata 0) := by
  decide

/-! ### Writes -/

/-- V50. -/
theorem test_write_byte : (after (.writeByte 0xC000#16 0x42) backed).addressSpace = [(0xC000, 0x42)] := by decide
/-- V68. -/
theorem test_write_no_cart :
    (after (.writeByte 0x2000#16 0x01) blank).response = some (.fault (.noCartridge (.addr 0x2000#16))) := by
  decide
/-- V54. -/
theorem test_write_joypad : (after (.writeByteJoypad 0x35) backed).addressSpace = [(0xFF00, 0x3F)] := by decide
/-- V60, V62: the zero-fill, and the engine as it was. -/
theorem test_boot_disable :
    (after .writeByteBootDisable { busy with addressSpace := [(0xC000, 0x42)] }).addressSpace = [] ∧
      (after .writeByteBootDisable busy).bootMode = false ∧ (after .writeByteBootDisable busy).dma = busy.dma := by
  decide
/-- V61: after the latch 0xFF50 is plain storage. -/
theorem test_boot_disable_later : (after .writeByteBootDisable blank).addressSpace = [(0xFF50, 0x01)] := by
  decide
/-- V63. -/
theorem test_write_vram :
    (after (.writeByteVram 0x8001#16 0x77) backed).vram = [(1, 0x77)] ∧
      (after (.writeByteVram 0x8001#16 0x77) backed).addressSpace = [] := by decide
/-- V64. -/
theorem test_write_oam : (after (.writeByteOam 0xFE00#16 0x10) backed).oam = [(0, 0x10)] := by decide
/-- V65. -/
theorem test_write_timer :
    (after (.writeByteTimer 0xFF07#16 0x05) backed).timer = Config.timerWrite [] 0xFF07#16 0x05 ∧
      (after (.writeByteTimer 0xFF07#16 0x05) backed).addressSpace = [] := ⟨rfl, rfl⟩
/-- V69: the overlay is read only. -/
theorem test_write_rom0 :
    (after (.writeByteCartRom0 0x0000#16 0x77) backed).cart = some (Config.cartWrite card 0x0000#16 0x77) := rfl
/-- R147 at the last ROMX address. -/
theorem test_write_romx :
    (after (.writeByteCartRomx 0x7FFF#16 0x77) backed).cart = some (Config.cartWrite card 0x7FFF#16 0x77) := rfl
/-- R147 at the first ERAM address. -/
theorem test_write_eram :
    (after (.writeByteCartEram 0xA000#16 0x77) backed).cart = some (Config.cartWrite card 0xA000#16 0x77) := rfl
/-- V66: 0xFF08 is outside the timer window. -/
theorem test_write_store : (after (.writeByteStore 0xFF08#16 0x05) backed).addressSpace = [(0xFF08, 0x05)] := by
  decide
/-- V77: the low byte latches, the high byte is then stored. -/
theorem test_write_word_latch :
    (after (.writeWord 0xFF50#16 0x7701#16) { backed with addressSpace := [(0xC000, 0x42)] }).addressSpace
      = [(0xFF51, 0x77)] := by decide
/-- V72: the first byte stays written, the second faults at 0x0000. -/
theorem test_write_word_wraps :
    (after (.writeWord 0xFFFF#16 0xABCD#16) blank).addressSpace = [(0xFFFF, 0xCD)] ∧
      (after (.writeWord 0xFFFF#16 0xABCD#16) blank).response = some (.fault (.noCartridge (.addr 0))) := by
  decide
/-- V82: a block write does not latch. -/
theorem test_write_block :
    (after (.writeBlock 0xFF50#16 [0x01]) backed).addressSpace = [(0xFF50, 0x01)] ∧
      (after (.writeBlock 0xFF50#16 [0x01]) backed).bootMode = true := by decide
/-- V80, V81: the last byte of the space, and one past it. -/
theorem test_write_block_edge :
    (after (.writeBlock 0xFFFE#16 [1, 2]) backed).addressSpace = [(0xFFFE, 1), (0xFFFF, 2)] ∧
      (after (.writeBlock 0xFFFF#16 [1, 2]) backed).response = some (.fault (.blockOverrun 0xFFFF#16 2)) := by
  decide

/-! ### The DMA engine -/

/-- V103: the cartridge, not the overlay. -/
theorem test_src_rom0 :
    (after (.dmaSrcRom0 0x00) backed).oam = (List.range 160).map (fun i => (i, 0xA5#8)) ∧
      (after (.dmaSrcRom0 0x00) backed).dma = ⟨true, 0⟩ := by decide +kernel
/-- V105. -/
theorem test_src_romx : Mem.read (after (.dmaSrcRomx 0x40) backed).oam 159 = 0x5A := by decide +kernel
/-- V101's shape: byte `i` comes from `PPU.vram[i]`. -/
theorem test_src_vram :
    (after (.dmaSrcVram 0x80) { backed with vram := [(0, 0xF0), (159, 0x6F), (160, 1)] }).oam
      = [(0, 0xF0), (159, 0x6F)] := by decide +kernel
/-- V107: no cartridge RAM behind the page. -/
theorem test_src_eram :
    (after (.dmaSrcEram 0xA0) { backed with cart := some ⟨[], [], [], []⟩ }).response
      = some (.fault (.dmaSourceOutOfBounds 0xA0)) := by decide
/-- V108: nothing moves, the lock is taken. -/
theorem test_src_oam :
    (after (.dmaSrcOam 0xFE) { backed with oam := [(3, 0x66)] }).oam = [(3, 0x66)] ∧
      (after (.dmaSrcOam 0xFE) backed).dma.active = true := by decide
/-- V109: page 0xFF is raw storage. -/
theorem test_src_store :
    (after (.dmaSrcStore 0xFF) { backed with addressSpace := [(0xFF00, 0x0F), (0xFFA0, 1)], oam := [(0x46, 9)] }).oam
      = [(0, 0x0F)] := by decide +kernel
/-- V118. -/
theorem test_trigger_no_cart :
    (after (.writeByteDmaTrigger 0x00) blank).response = some (.fault (.noCartridge (.page 0))) := by decide
/-- V111. -/
theorem test_trigger_again :
    (after (.writeByteDmaTrigger 0xC1) busy).response = some (.fault (.dmaAlreadyRunning 0xC1)) ∧
      (after (.writeByteDmaTrigger 0xC1) busy).oam = [] := by decide
/-- V112, at elapsed 100: 59 more keep the lock, 60 drop it. -/
theorem test_dma_advance :
    (after (.dmaAdvance 59) busy).dma = ⟨true, 159⟩ ∧ (after (.dmaAdvance 60) busy).dma = ⟨false, 160⟩ := by decide
/-- V116: an advance while idle is not banked. -/
theorem test_dma_advance_idle : (after (.dmaAdvance 500) backed).dma = ⟨false, 0⟩ := by decide
/-- V2 and V113. -/
theorem test_dma_active :
    (after .dmaActive blank).response = some (.active false) ∧ (after .dmaActive busy).response = some (.active true) := by
  decide

/-! ### Steps -/

/-- The words placed for the next step run: P1's latch, and a page of format `DMASRC`. -/
theorem test_step_placed :
    (match step (State.reset.withFetchWord 24 0x1FF50) with | .next t => t.response | _ => none) = some .ok ∧
      (match step (State.reset.withFetchWord 8 0xFE) with | .next t => t.dma.active | _ => false) = true := by
  decide
/-- The first step from reset is the construction that was placed. -/
theorem test_step_construct :
    (match step (State.reset.withFetchWord 40 0x600000000) with | .next t => t.constructed | _ => false) = true := rfl

/-! ### Witnesses: every statement's hypotheses are met, clause by clause, at the ends of their ranges -/

/-- O1. -/
theorem witness_step_runs :
    let s : State := { State.reset with inputs := [.transaction ⟨0x600000000#36, .none⟩] }
    s.fault = none ∧ s.inputs = .transaction ⟨0x600000000#36, .none⟩ :: [] ∧
      decode ⟨0x600000000#36, .none⟩ = .ok .constructBlank := ⟨rfl, rfl, by decide⟩
/-- O2, first clause: V20 and V21. -/
theorem witness_ill_formed :
    (⟨0x1C0000142#36, .none⟩ : Request).op.toNat < 8 ∧ ¬Fits ⟨0x1C0000142#36, .none⟩ ∧
      (⟨0x7C0000000#36, .payload []⟩ : Request).op.toNat < 8 ∧ ¬Fits ⟨0x7C0000000#36, .payload []⟩ := by
  simp [Fits, Request.op, Request.data, Request.addr, highByte]
/-- O2, second clause: the first and the last op code. -/
theorem witness_fits : Fits ⟨0x0C0000000#36, .none⟩ ∧ Fits ⟨0x700000000#36, .payload [1]⟩ := by
  simp [Fits, Request.op, Request.data, Request.addr]
/-- O3: both ends of the reserved range. -/
theorem witness_reserved : State.reset.fault = none ∧ 8 ≤ (0x8#4).toNat ∧ 8 ≤ (0xF#4).toNat := by decide
/-- O4, both clauses. -/
theorem witness_lifecycle :
    (State.reset.fault = none ∧ State.reset.constructed = false ∧ isConstruction .dmaActive = false ∧
      isReserved .dmaActive = false) ∧ Ready blank ∧ isConstruction .constructBlank = true := by decide
/-- O5: an event of each kind, at the last index and one past it. -/
theorem witness_agent : ∀ e ∈ [AgentEvent.ppuVram 0x1FFF 1, .ppuVram 0x2000 1, .ppuOam 0x9F 1, .ppuOam 0xA0 1, .timer [1]],
    ({ blank with inputs := [.agent e] } : State).fault = none ∧
      ({ blank with inputs := [.agent e] } : State).inputs = .agent e :: [] := fun _ _ => ⟨rfl, rfl⟩
/-- O6. -/
theorem witness_no_input : State.reset.fault = none ∧ State.reset.inputs = [] := ⟨rfl, rfl⟩
/-- O7, O8, O9: a block that can be constructed. -/
theorem witness_constructible : Constructible State.reset := by decide
/-- O8: V6's image length at indicator 0. -/
theorem witness_image :
    0x149 ≤ (List.replicate 0x8000 (0 : Byte)).length ∧
      ((List.replicate 0x8000 (0 : Byte)).getD 0x148 0).toNat ≤ 8 ∧
      0x8000 * 2 ^ ((List.replicate 0x8000 (0 : Byte)).getD 0x148 0).toNat ≤ (List.replicate 0x8000 (0 : Byte)).length := by
  simp [-List.reduceReplicate, List.getD]
/-- O9: V12, V11 and V14, each at the boundary of its clause. -/
theorem witness_image_checks :
    (List.replicate 0x148 (0 : Byte)).length < 0x149 ∧
      (0x149 ≤ (List.replicate 0x148 (0 : Byte) ++ [9]).length ∧
        8 < ((List.replicate 0x148 (0 : Byte) ++ [9]).getD 0x148 0).toNat) ∧
      (0x149 ≤ (List.replicate 0x7FFF (0 : Byte)).length ∧ ((List.replicate 0x7FFF (0 : Byte)).getD 0x148 0).toNat ≤ 8 ∧
        (List.replicate 0x7FFF (0 : Byte)).length < 0x8000 * 2 ^ ((List.replicate 0x7FFF (0 : Byte)).getD 0x148 0).toNat) := by
  simp [-List.reduceReplicate, List.getD]
/-- O10, second clause. -/
theorem witness_bad_configuration :
    ({ State.reset with cfg := badParams } : State).fault = none ∧
      ({ State.reset with cfg := badParams } : State).constructed = false ∧
      isConstruction .constructBlank = true ∧ configValid badParams = false := by decide
/-- O11 to O34 and O46: blocks that run, with and without a cartridge, in either mode, and under a valid configuration. -/
theorem witness_ready :
    Ready blank ∧ Ready backed ∧ Ready busy ∧ blank.bootMode = false ∧ backed.bootMode = true ∧
      configValid backed.cfg = true ∧ configValid blank.cfg = true := by decide
/-- O11: both ends of the overlay window. -/
theorem witness_boot_window : (0x0000#16).toNat < 0x100 ∧ (0x00FF#16).toNat < 0x100 := by decide
/-- O12: the ends of the three ranges, with and without a cartridge. -/
theorem witness_read_cart :
    readClass backed.cfg true 0x0100#16 = .cartRom0 ∧ readClass blank.cfg false 0x0000#16 = .cartRom0 ∧
      readClass blank.cfg false 0x3FFF#16 = .cartRom0 ∧ readClass backed.cfg true 0x4000#16 = .cartRomx ∧
      readClass blank.cfg false 0x7FFF#16 = .cartRomx ∧ readClass backed.cfg true 0xA000#16 = .cartEram ∧
      readClass blank.cfg false 0xBFFF#16 = .cartEram ∧ blank.cart = none ∧ backed.cart = some card :=
  ⟨by decide, by decide, by decide, by decide, by decide, by decide, by decide, rfl, rfl⟩
/-- O13: the ends of the two ranges; the configuration is valid (witness_ready). -/
theorem witness_read_ppu :
    readClass blank.cfg false 0x8000#16 = .vram ∧ readClass blank.cfg false 0x9FFF#16 = .vram ∧
      readClass blank.cfg false 0xFE00#16 = .oam ∧ readClass blank.cfg false 0xFE9F#16 = .oam := by decide
/-- O14, O46: storage on either side of the collaborators' ranges, and the three registers and the timer window. -/
theorem witness_read_store :
    readClass blank.cfg false 0xC000#16 = .store ∧ readClass blank.cfg false 0xFEA0#16 = .store ∧
      readClass blank.cfg false 0xFFFF#16 = .store ∧ blank.cfg.timer.contains 0xFF04#16 = true ∧
      blank.cfg.timer.contains 0xFF07#16 = true ∧ configValid blank.cfg = true := by decide
/-- O15: a read that answers and a read that faults. -/
theorem witness_read_next :
    (isRead (.readByte 0xC000#16) = true ∧ exec (.readByte 0xC000#16) blank = .next (after (.readByte 0xC000#16) blank)) ∧
      isRead (.readByteCartRom0 0#16) = true ∧
      exec (.readByteCartRom0 0#16) blank = .next (after (.readByteCartRom0 0#16) blank) := ⟨⟨rfl, rfl⟩, rfl, rfl⟩
/-- O17: the fall-through clauses, by the mode and by the value. -/
theorem witness_no_latch : (blank.bootMode = false ∨ (0x01 : Byte) ≠ 0x01) ∧ (backed.bootMode = false ∨ (0x03 : Byte) ≠ 0x01) := by
  decide
/-- O18: the ends of the two ranges. -/
theorem witness_write_ppu :
    writeClass blank.cfg false 0x8000#16 1 = .vram ∧ writeClass blank.cfg false 0x9FFF#16 1 = .vram ∧
      writeClass blank.cfg false 0xFE00#16 1 = .oam ∧ writeClass blank.cfg false 0xFE9F#16 1 = .oam := by decide
/-- O19: the ends of the window, and their read class. -/
theorem witness_write_timer :
    writeClass blank.cfg false 0xFF04#16 1 = .timer ∧ writeClass blank.cfg false 0xFF07#16 1 = .timer ∧
      readClass blank.cfg false 0xFF04#16 = .store ∧ readClass blank.cfg false 0xFF07#16 = .store := by decide
/-- O20: the ends of the three ranges; the overlay window is a cartridge range for writes. -/
theorem witness_write_cart :
    writeClass backed.cfg true 0x0000#16 1 = .cartRom0 ∧ writeClass backed.cfg true 0x3FFF#16 1 = .cartRom0 ∧
      writeClass blank.cfg false 0x4000#16 1 = .cartRomx ∧ writeClass blank.cfg false 0x7FFF#16 1 = .cartRomx ∧
      writeClass blank.cfg false 0xA000#16 1 = .cartEram ∧ writeClass blank.cfg false 0xBFFF#16 1 = .cartEram := by decide
/-- O21, O46: storage next to a register, a window and the end of the space. -/
theorem witness_write_store :
    writeClass blank.cfg false 0xC000#16 1 = .store ∧ writeClass blank.cfg false 0xFF08#16 1 = .store ∧
      writeClass blank.cfg false 0xFFFF#16 1 = .store ∧ writeClass backed.cfg true 0xFF50#16 2 = .store ∧
      readClass blank.cfg false 0xC000#16 = .store ∧ 0xC001#16 ≠ 0xC000#16 := by decide
/-- O22: a word write whose first byte is written, and one whose first byte faults. -/
theorem witness_word :
    exec (.writeByte 0xFFFF#16 0xCD) blank = .next (after (.writeByte 0xFFFF#16 0xCD) blank) ∧
      (after (.writeByte 0xFFFF#16 0xCD) blank).fault = none ∧
      exec (.writeByte 0x2000#16 0xCD) blank = .next (after (.writeByte 0x2000#16 0xCD) blank) ∧
      (after (.writeByte 0x2000#16 0xCD) blank).fault ≠ none := ⟨rfl, by decide, rfl, by decide⟩
/-- O23: two storage addresses, the last two of the space among them. -/
theorem witness_word_store :
    writeClass blank.cfg false 0xC000#16 1 = .store ∧ writeClass blank.cfg false (0xC000#16 + 1) 1 = .store ∧
      writeClass blank.cfg false 0xFFFE#16 1 = .store ∧ writeClass blank.cfg false (0xFFFE#16 + 1) 1 = .store := by decide
/-- O24: one byte past the end of the space, and up to its end. -/
theorem witness_block :
    0x10000 < (0xFFFF#16).toNat + [1#8, 2#8].length ∧ (0xFFFE#16).toNat + [1#8, 2#8].length ≤ 0x10000 := by decide
/-- O26: the first page of each cartridge range, with a buffer of exactly 160 bytes. -/
theorem witness_dma_cart :
    backed.dma.active = false ∧ backed.cart = some card ∧
      (dmaClass backed.cfg (dmaSource 0x00) = .rom0 ∧ (dmaSource 0x00).toNat - backed.cfg.rom0.lo.toNat + 160 ≤ card.rom0.length) ∧
      (dmaClass backed.cfg (dmaSource 0x40) = .romx ∧ (dmaSource 0x40).toNat - backed.cfg.romx.lo.toNat + 160 ≤ card.romx.length) ∧
      (dmaClass backed.cfg (dmaSource 0xA0) = .eram ∧ (dmaSource 0xA0).toNat - backed.cfg.eram.lo.toNat + 160 ≤ card.ram.length) := by
  refine ⟨rfl, rfl, ⟨by decide, ?_⟩, ⟨by decide, ?_⟩, by decide, ?_⟩ <;> simp [-List.reduceReplicate, card, backed] <;> decide
/-- O27: the first and the last VRAM page. -/
theorem witness_dma_vram :
    (dmaClass backed.cfg (dmaSource 0x80) = .vram ∧ dmaClass backed.cfg (dmaSource 0x9F) = .vram) ∧
      (dmaSource 0x9F).toNat - backed.cfg.vram.lo.toNat + 160 ≤ backed.cfg.vramSize := by decide
/-- O28: the ends of the two storage page runs. -/
theorem witness_dma_store : ∀ p ∈ [0xC0#8, 0xFD#8, 0xFF#8], dmaClass backed.cfg (dmaSource p) = .store := by decide
/-- O29. -/
theorem witness_dma_oam : dmaClass backed.cfg (dmaSource 0xFE) = .oam := by decide
/-- O30: an active engine, and a word write whose first byte completes. -/
theorem witness_busy :
    busy.dma.active = true ∧ exec (.writeByte 0xFF45#16 1) busy = .next (after (.writeByte 0xFF45#16 1) busy) ∧
      (after (.writeByte 0xFF45#16 1) busy).fault = none ∧
      exec (.writeBlock 0xFF46#16 [1]) busy = .next (after (.writeBlock 0xFF46#16 [1]) busy) :=
  ⟨rfl, rfl, by decide, rfl⟩
/-- O31: no cartridge; each cartridge buffer one page short; a VRAM page past a short buffer. -/
theorem witness_dma_faults :
    (blank.cart = none ∧ dmaClass blank.cfg (dmaSource 0x00) = .rom0) ∧
      (dmaClass backed.cfg (dmaSource 0x01) = .rom0 ∧ card.rom0.length < offsetIn backed.cfg.rom0 (dmaSource 0x01) + 160) ∧
      (dmaClass backed.cfg (dmaSource 0x41) = .romx ∧ card.romx.length < offsetIn backed.cfg.romx (dmaSource 0x41) + 160) ∧
      (dmaClass backed.cfg (dmaSource 0xA1) = .eram ∧ card.ram.length < offsetIn backed.cfg.eram (dmaSource 0xA1) + 160) ∧
      (dmaClass { Params.dmg with vramSize := 0x1F9F } (dmaSource 0x9F) = .vram ∧
        0x1F9F < offsetIn Params.dmg.vram (dmaSource 0x9F) + 160) := by
  refine ⟨⟨rfl, by decide⟩, ⟨by decide, ?_⟩, ⟨by decide, ?_⟩, ⟨by decide, ?_⟩, by decide⟩ <;> simp [-List.reduceReplicate, card] <;> decide
/-- O32: one cycle short of the threshold, and at it. -/
theorem witness_advance :
    busy.dma.elapsed + 59 < busy.cfg.dmaCycles ∧ busy.cfg.dmaCycles ≤ busy.dma.elapsed + 60 ∧ backed.dma.active = false := by
  decide
/-- O34. -/
theorem witness_wait : busy.dma.active = true ∧ busy.dma.elapsed < busy.cfg.dmaCycles ∧ 1 ≤ 64 := by decide
/-- O35: a transaction of each kind on a busy block. -/
theorem witness_window :
    exec (.readByte 0xC000#16) busy = .next (after (.readByte 0xC000#16) busy) ∧
      exec (.writeByte 0xFE00#16 1) busy = .next (after (.writeByte 0xFE00#16 1) busy) ∧
      exec (.writeWord 0xFF47#16 1) busy = .next (after (.writeWord 0xFF47#16 1) busy) ∧
      exec (.writeBlock 0xFF46#16 [1]) busy = .next (after (.writeBlock 0xFF46#16 [1]) busy) := ⟨rfl, rfl, rfl, rfl⟩
/-- O36, O37: a faulting transaction, a faulting second half of a word write, and a faulted block. -/
theorem witness_fault :
    (exec (.readByte 0#16) blank = .next (after (.readByte 0#16) blank) ∧ (after (.readByte 0#16) blank).fault ≠ none) ∧
      (exec (.writeWord 0xFFFF#16 1) blank = .next (after (.writeWord 0xFFFF#16 1) blank) ∧
        (after (.writeWord 0xFFFF#16 1) blank).fault ≠ none) ∧
      ({ blank with fault := some .noCartridge } : State).fault ≠ none :=
  ⟨⟨rfl, by decide⟩, ⟨rfl, by decide⟩, by decide⟩
/-- O38: a refused request, and a step of a block that carries the mark. -/
theorem witness_refused :
    (exec .constructBlank blank = .next (after .constructBlank blank) ∧
      (after .constructBlank blank).response = some (.refused .alreadyConstructed)) ∧
      step { blank with refusalMark := true, inputs := [.transaction ⟨0x400000000#36, .none⟩] }
        = .next { blank with refusalMark := true, response := some (.active false) } ∧
      ({ blank with refusalMark := true } : State).refusalMark = true := ⟨⟨rfl, rfl⟩, rfl, rfl⟩
/-- O39: buffers that fill their ranges are long enough. -/
theorem witness_long_enough : BuffersLongEnough Params.dmg longCard := by
  intro p
  have h : ∀ q : Byte,
      (dmaClass Params.dmg (dmaSource q) = .rom0 → offsetIn Params.dmg.rom0 (dmaSource q) + dmaLen ≤ 0x4000) ∧
      (dmaClass Params.dmg (dmaSource q) = .romx → offsetIn Params.dmg.romx (dmaSource q) + dmaLen ≤ 0x4000) ∧
      (dmaClass Params.dmg (dmaSource q) = .eram → offsetIn Params.dmg.eram (dmaSource q) + dmaLen ≤ 0x2000) ∧
      (dmaClass Params.dmg (dmaSource q) = .vram → offsetIn Params.dmg.vram (dmaSource q) + dmaLen ≤ Params.dmg.vramSize) := by
    decide +kernel
  simpa only [longCard, List.length_replicate] using h p
/-- O39: the rest of its hypotheses. -/
theorem witness_well_configured :
    Ready { backed with cart := some longCard } ∧ configValid backed.cfg = true ∧ backed.dma.active = false ∧
      0xFFFF#16 ≠ 0xFF46#16 ∧ 0xFFFF#16 ≠ 0xFF45#16 ∧ (0xFFFE#16).toNat + [1#8, 2#8].length ≤ 0x10000 := by
  refine ⟨⟨rfl, rfl⟩, by decide, rfl, by decide, by decide, by decide⟩
/-- O42: a well-formed term of every row. -/
theorem witness_well_formed :
    [Instr.readByte 0xFFFF#16, .writeByte 0xFF46#16 1, .writeWord 0xFFFF#16 1, .writeBlock 0 [1], .dmaActive, .dmaAdvance 1,
      .constructBlank, .constructCart [], .reserved 0x8 0 0 .none].all Instr.wellFormed = true := by decide
/-- O43: a well-formed term of every class row, each another term than its transaction. -/
theorem witness_class_rows :
    [Instr.readByteBoot 0x00FF#16, .readByteCartRom0 0x3FFF#16, .readByteCartRomx 0x4000#16, .readByteCartEram 0xBFFF#16,
      .readByteVram 0x8000#16, .readByteOam 0xFE9F#16, .readByteStore 0xFEA0#16, .writeByteDmaTrigger 0xFF,
      .writeByteJoypad 0x35, .writeByteBootDisable, .writeByteVram 0x9FFF#16 1, .writeByteOam 0xFE00#16 1,
      .writeByteTimer 0xFF07#16 1, .writeByteCartRom0 0x0000#16 1, .writeByteCartRomx 0x7FFF#16 1,
      .writeByteCartEram 0xA000#16 1, .writeByteStore 0xFF50#16 1, .dmaSrcRom0 0x3F, .dmaSrcRomx 0x40, .dmaSrcVram 0x9F,
      .dmaSrcEram 0xA0, .dmaSrcOam 0xFE, .dmaSrcStore 0xFF].all (fun i => i.wellFormed && i.core != i) = true := by decide
/-- O45: the configuration it speaks of, and the three exceptions of R59. -/
theorem witness_owners :
    configValid Params.dmg = true ∧ readClass Params.dmg true 0x0000#16 = .boot ∧
      writeClass Params.dmg true 0xFF46#16 1 = .dmaTrigger ∧ readClass Params.dmg true 0xFF46#16 = .store ∧
      writeClass Params.dmg true 0xFF50#16 1 = .bootDisable ∧ writeClass Params.dmg true 0xFF04#16 1 = .timer := by decide
/-- O47: the invariant at reset, with a step. -/
theorem witness_inv_step :
    StateInv { State.reset with inputs := [.transaction ⟨0x400000000#36, .none⟩] } ∧
      step { State.reset with inputs := [.transaction ⟨0x400000000#36, .none⟩] }
        = .next { State.reset with refusalMark := true, response := some (.refused .notConstructed) } := by
  refine ⟨⟨rfl, rfl, rfl, ?_, ?_, ?_⟩, rfl⟩ <;> simp [State.reset, dmaIdle]
/-- O49: a step that leaves boot mode, and one that stays in it. -/
theorem witness_latch_step :
    step { backed with inputs := [.transaction ⟨0x1FF500001#36, .none⟩] }
        = .next { backed with bootMode := false, response := some .ok } ∧
      step { backed with inputs := [.transaction ⟨0x400000000#36, .none⟩] }
        = .next { backed with response := some (.active false) } ∧ backed.constructed = true := ⟨rfl, rfl, rfl⟩
/-- O50, O51: a step that changes an `AS` byte. -/
theorem witness_store_step :
    step { blank with inputs := [.transaction ⟨0x1C0000042#36, .none⟩] }
        = .next { blank with addressSpace := [(0xC000, 0x42)], response := some .ok } ∧
      Mem.read [(0xC000, 0x42)] 0xC000 ≠ Mem.read blank.addressSpace 0xC000 := ⟨rfl, by decide⟩
/-- O52: a step that hands a write to the cartridge, and one on a block without a cartridge. -/
theorem witness_cart_step :
    step { backed with inputs := [.transaction ⟨0x120000001#36, .none⟩] }
        = .next { backed with cart := some (Config.cartWrite card 0x2000#16 0x01), response := some .ok } ∧
      rangeClass backed.cfg 0x2000#16 ∈ [WriteClass.cartRom0, .cartRomx, .cartEram] ∧ blank.cart = none ∧
      step { blank with inputs := [.transaction ⟨0x400000000#36, .none⟩] }
        = .next { blank with response := some (.active false) } := ⟨rfl, by decide, rfl, rfl⟩

/-- O53: a step that starts the engine. -/
theorem witness_engine_step :
    step { backed with inputs := [.transaction ⟨0x1FF4600FE#36, .none⟩] }
        = .next { backed with dma := ⟨true, 0⟩, response := some .ok } ∧
      (⟨true, 0⟩ : Dma) ≠ backed.dma := ⟨rfl, by decide⟩
/-- O54: a step that changes a collaborator's buffer, and one of its own events. -/
theorem witness_collaborator_step :
    step { backed with inputs := [.transaction ⟨0x180010077#36, .none⟩] }
        = .next { backed with vram := [(1, 0x77)], response := some .ok } ∧
      step { backed with inputs := [.agent (.timer [1])] } = .next { backed with timer := [1] } ∧
      [(1, 0x77#8)] ≠ backed.vram ∧ [1#8] ≠ backed.timer := ⟨rfl, rfl, by decide, by decide⟩

end Sys2Proof.Tests
end

section
/-! PROOF. The statements of 00_scope.md: how a step takes its input (R5, R6), and what every step keeps (R7). -/

namespace Sys2Proof.Machine

open Sys2Proof

/-! ### Taking an input -/

theorem fetch_idle {s : State} (hf : s.fault = none) (hi : s.inputs = []) : fetch s = .idle := by
  simp [fetch, hf, hi]

theorem fetch_request {s : State} {r : Request} {rest : List Input} (hf : s.fault = none)
    (hi : s.inputs = .transaction r :: rest) : fetch s = .request r { s with inputs := rest } := by
  simp [fetch, hf, hi]

/-! ### The fields an accepted transaction keeps -/

/-- A read changes the fault register and the response at most. -/
theorem readByte_keeps (a : Addr) (s : State) :
    (readByte a s).cfg = s.cfg ∧ (readByte a s).refusalMark = s.refusalMark ∧
      (readByte a s).constructed = s.constructed ∧ (readByte a s).inputs = s.inputs := by
  rcases readByte_cases a s with ⟨v, h⟩ | ⟨-, h⟩
  · simp [h]
  · simp [h]

/-- A word write keeps what each of its byte writes keeps. -/
theorem writeWord_keeps (a : Addr) (v : Word) (s : State) :
    (writeWord a v s).cfg = s.cfg ∧ (writeWord a v s).refusalMark = s.refusalMark ∧
      (writeWord a v s).constructed = s.constructed ∧ (writeWord a v s).inputs = s.inputs := by
  obtain ⟨hcfg, hmark, hcon, hin⟩ := writeByte_keeps a (lowByte v) s
  rcases writeWord_cases a v s with ⟨-, h⟩ | ⟨-, h⟩ <;> rw [h]
  · exact ⟨hcfg, hmark, hcon, hin⟩
  · obtain ⟨hcfg', hmark', hcon', hin'⟩ := writeByte_keeps (nextAddr a) (highByte v) (writeByte a (lowByte v) s)
    exact ⟨hcfg'.trans hcfg, hmark'.trans hmark, hcon'.trans hcon, hin'.trans hin⟩

/-- What a block write can do: overrun the space and change nothing else, or put the run into `AS` (R150). -/
theorem writeBlock_cases (a : Addr) (bytes : List Byte) (s : State) :
    (asSize < a.toNat + bytes.length ∧ writeBlock a bytes s = raise (.blockOverrun a bytes.length) s) ∨
      (a.toNat + bytes.length ≤ asSize ∧ writeBlock a bytes s
        = respond .ok { s with addressSpace := Mem.writeList s.addressSpace a.toNat bytes }) := by
  rcases Nat.lt_or_ge asSize (a.toNat + bytes.length) with h | h
  · exact .inl ⟨h, if_pos h⟩
  · exact .inr ⟨h, if_neg (Nat.not_lt.mpr h)⟩

theorem writeBlock_keeps (a : Addr) (bytes : List Byte) (s : State) :
    (writeBlock a bytes s).cfg = s.cfg ∧ (writeBlock a bytes s).refusalMark = s.refusalMark ∧
      (writeBlock a bytes s).constructed = s.constructed ∧ (writeBlock a bytes s).inputs = s.inputs := by
  rcases writeBlock_cases a bytes s with ⟨-, h⟩ | ⟨-, h⟩
  · simp [h]
  · simp [h]

/-- An accepted transaction keeps the parameters, the refusal mark, the lifecycle bit and the queue. -/
theorem Effect.keeps {i : Instr} {s t : State} (h : Effect i s t) :
    t.cfg = s.cfg ∧ t.refusalMark = s.refusalMark ∧ t.constructed = s.constructed ∧ t.inputs = s.inputs := by
  cases h with
  | readByte a => exact readByte_keeps a s
  | writeByte a v => exact writeByte_keeps a v s
  | writeWord a v => exact writeWord_keeps a v s
  | writeBlock a bytes => exact writeBlock_keeps a bytes s
  | dmaActive => simp
  | dmaAdvance n => simp

/-! ### What every step keeps -/

/-- A collaborator's own change keeps the parameters and the lifecycle bit. -/
theorem agentStep_keeps (e : AgentEvent) (s : State) :
    (agentStep e s).cfg = s.cfg ∧ (agentStep e s).constructed = s.constructed := by
  cases e with
  | ppuVram i v => simp only [agentStep]; split <;> exact ⟨rfl, rfl⟩
  | ppuOam i v => simp only [agentStep]; split <;> exact ⟨rfl, rfl⟩
  | timer u => exact ⟨rfl, rfl⟩

/-- A construction that ran keeps the parameters, whether it built the block or raised a fault. -/
theorem buildCart_cfg (image : List Byte) (s : State) : (buildCart image s).cfg = s.cfg := by
  rcases buildCart_cases image s with ⟨f, h⟩ | ⟨c, h⟩
  · simp [h]
  · simp [h]

/-- A transaction keeps the parameters and never undoes the construction: a construction runs only on a block that is
not constructed yet (R84). -/
theorem exec_keeps {i : Instr} {s t : State} (hi : i.core = i) (h : exec i s = .next t) :
    t.cfg = s.cfg ∧ (s.constructed = true → t.constructed = true) := by
  obtain ⟨-, ⟨r, rfl⟩ | ⟨-, he⟩ | ⟨⟨-, hc, -⟩, ⟨-, rfl⟩ | ⟨image, -, rfl⟩⟩⟩ := exec_cases hi h
  · simp
  · obtain ⟨hcfg, -, hcon, -⟩ := he.keeps
    exact ⟨hcfg, fun hs => hcon.trans hs⟩
  · simp [buildBlank]
  · exact ⟨buildCart_cfg image s, fun hs => absurd hs (by simp [hc])⟩

end Sys2Proof.Machine

namespace Sys2Proof.Proofs

open Sys2Proof Sys2Proof.Machine

/-- Settles O50: by the three kinds of step (`step_cases`), each of which keeps the parameters and the lifecycle bit. -/
theorem parametersAreConstant : Obligations.ParametersAreConstant := by
  unfold Obligations.ParametersAreConstant
  intro s t h
  obtain ⟨hf, ⟨e, rest, -, rfl⟩ | ⟨r, rest, reason, -, -, rfl⟩ | ⟨r, rest, i, -, -, hi, hx⟩⟩ := step_cases h
  · obtain ⟨hcfg, hcon⟩ := agentStep_keeps e { s with inputs := rest }
    exact ⟨hcfg, hf, fun hs => hcon.trans hs⟩
  · exact ⟨rfl, hf, id⟩
  · obtain ⟨hcfg, hcon⟩ := exec_keeps hi hx
    exact ⟨hcfg, hf, hcon⟩

/-- Settles O1: the fetch takes the request, and its decoding picks the arm that executes. -/
theorem stepRunsDecodedTransaction : Obligations.StepRunsDecodedTransaction := by
  unfold Obligations.StepRunsDecodedTransaction
  intro s r rest i hf hi hd
  simp only [step, fetch_request hf hi, hd]

/-- Settles O6: the fetch finds nothing to do. -/
theorem noInputNoStep : Obligations.NoInputNoStep := by
  unfold Obligations.NoInputNoStep
  intro s hf hi
  simp only [step, fetch_idle hf hi]

end Sys2Proof.Proofs
end

section
/-! PROOF. The collaborators' own events between two transactions (10_state.md R26, R27; 92_eei_decisions.md D22): each
is one update of its owner's field. -/

namespace Sys2Proof.Machine

open Sys2Proof

@[simp] theorem agentStep_ppuVram (i : Nat) (v : Byte) (s : State) :
    agentStep (.ppuVram i v) s = { s with vram := if i < s.cfg.vramSize then Mem.write s.vram i v else s.vram } := by
  simp only [agentStep]
  split <;> rfl

@[simp] theorem agentStep_ppuOam (i : Nat) (v : Byte) (s : State) :
    agentStep (.ppuOam i v) s = { s with oam := if i < s.cfg.oamSize then Mem.write s.oam i v else s.oam } := by
  simp only [agentStep]
  split <;> rfl

@[simp] theorem agentStep_timer (u : TimerState) (s : State) : agentStep (.timer u) s = { s with timer := u } := rfl

/-- An event changes the collaborators' own fields at most. -/
theorem agentStep_frame (e : AgentEvent) (s : State) :
    agentStep e s =
      { s with vram := (agentStep e s).vram, oam := (agentStep e s).oam, timer := (agentStep e s).timer } := by
  cases e with
  | ppuVram i v => simp
  | ppuOam i v => simp
  | timer u => simp

/-- Each of the collaborators' fields is changed by the events of its owner only. -/
theorem agentStep_owner (e : AgentEvent) (s : State) :
    ((agentStep e s).timer ≠ s.timer → ∃ u, e = .timer u) ∧
      ((agentStep e s).vram ≠ s.vram → ∃ k v, e = .ppuVram k v) ∧
      ((agentStep e s).oam ≠ s.oam → ∃ k v, e = .ppuOam k v) := by
  cases e with
  | ppuVram i v => simp
  | ppuOam i v => simp
  | timer u => simp

/-- A bounded write: the byte at `i` if `i` is an index of the array, and no other byte. -/
theorem Mem.read_write_bounded (m : Mem) (size i k : Nat) (v : Byte) :
    Mem.read (if i < size then Mem.write m i v else m) k = if i < size ∧ k = i then v else Mem.read m k := by
  by_cases hi : i < size
  · simp [hi, Mem.read_write, eq_comm]
  · simp [hi]

/-- A bounded write keeps the canonical form. -/
theorem Mem.wf_write_bounded {m : Mem} {size : Nat} (i : Nat) (v : Byte) (hm : Mem.wf size m = true) :
    Mem.wf size (if i < size then Mem.write m i v else m) = true := by
  split
  next hi => exact Mem.wf_write v hi hm
  next => exact hm

theorem step_agent {s : State} {e : AgentEvent} {rest : List Input} (hf : s.fault = none)
    (hi : s.inputs = .agent e :: rest) : step s = .next (agentStep e { s with inputs := rest }) := by
  simp [step, fetch, hf, hi]

end Sys2Proof.Machine

namespace Sys2Proof.Proofs

open Sys2Proof Sys2Proof.Machine

/-- Settles O5: the step runs the event (`step_agent`), and each event is one update of its owner's field. -/
theorem agentEventTouchesItsOwnState : Obligations.AgentEventTouchesItsOwnState := by
  unfold Obligations.AgentEventTouchesItsOwnState
  intro s e rest hf hi
  refine ⟨_, step_agent hf hi, agentStep_frame e _, ?_⟩
  cases e with
  | ppuVram i v => simp [Mem.read_write_bounded]
  | ppuOam i v => simp [Mem.read_write_bounded]
  | timer u => simp

end Sys2Proof.Proofs
end

section
/-! PROOF. The invariant of 10_state.md (R20, R26): one lemma per operation that changes memory, the engine or the
lifecycle, and from them that every step keeps `StateInv`. -/

namespace Sys2Proof.Machine

open Sys2Proof

/-! ### What a valid configuration bounds (R52) -/

/-- The two ranges fit into the PPU's buffers, a DMA block fits into OAM, and a transfer takes at least one cycle. -/
theorem configValid_bounds {c : Params} (h : configValid c = true) :
    c.vram.hi.toNat + 1 - c.vram.lo.toNat ≤ c.vramSize ∧ c.oam.hi.toNat + 1 - c.oam.lo.toNat ≤ c.oamSize ∧
      dmaLen ≤ c.oamSize ∧ 1 ≤ c.dmaCycles := by
  simp only [configValid, Bool.and_eq_true, decide_eq_true_eq] at h
  obtain ⟨⟨⟨⟨-, hvram⟩, hoam⟩, hlen⟩, hcycles⟩ := h
  exact ⟨hvram, hoam, hlen, hcycles⟩

/-- The offset of an address in a range that fits into a buffer is an index of the buffer. -/
theorem offsetIn_lt {r : Range} {a : Addr} {size : Nat} (ha : r.contains a = true)
    (hr : r.hi.toNat + 1 - r.lo.toNat ≤ size) : offsetIn r a < size := by
  simp only [Range.contains, Bool.and_eq_true, decide_eq_true_eq, BitVec.le_def] at ha
  unfold offsetIn
  omega

/-! ### Each operation keeps the invariant -/

/-- The invariant does not speak of the queue or of how a transaction ended. -/
theorem StateInv.answered {s : State} (h : StateInv s) (f : Option FaultCode) (mark : Bool) (r : Option Response)
    (xs : List Input) : StateInv { s with fault := f, refusalMark := mark, response := r, inputs := xs } :=
  ⟨h.asWf, h.vramWf, h.oamWf, h.validCfg, h.counting, h.unbuilt⟩

theorem StateInv.raise {s : State} (h : StateInv s) (f : BusFault) : StateInv (raise f s) := h.answered _ _ _ _

theorem StateInv.refuse {s : State} (h : StateInv s) (r : Reason) : StateInv (refuse r s) := h.answered _ _ _ _

theorem StateInv.respond {s : State} (h : StateInv s) (r : Response) : StateInv (respond r s) := h.answered _ _ _ _

/-- A construction runs only under a configuration that meets R52, and leaves `AS` zero and the engine idle. -/
theorem StateInv.constructed {s : State} (h : StateInv s) (hv : configValid s.cfg = true) (boot : Bool)
    (c : Option Cart) : StateInv (constructed boot c s) where
  asWf := rfl
  vramWf := h.vramWf
  oamWf := h.oamWf
  validCfg _ := hv
  counting hactive := absurd hactive Bool.false_ne_true
  unbuilt hc := Bool.noConfusion hc

theorem StateInv.buildCart {s : State} (h : StateInv s) (hv : configValid s.cfg = true) (image : List Byte) :
    StateInv (buildCart image s) := by
  rcases buildCart_cases image s with ⟨f, e⟩ | ⟨c, e⟩ <;> rw [e]
  · exact h.raise f
  · exact h.constructed hv true (some c)

/-- The latch empties `AS` and drops `boot_mode`. -/
theorem StateInv.latch {s : State} (h : StateInv s) : StateInv (latch s) := { h with asWf := rfl }

/-- Steps 4 and 5 write at an offset inside the buffer that the range maps to, or at an address. -/
theorem StateInv.writeRouted {s : State} (h : StateInv s) (hc : s.constructed = true) (a : Addr) (v : Byte) :
    StateInv (writeRouted a v s) := by
  obtain ⟨hvram, hoam, -, -⟩ := configValid_bounds (h.validCfg hc)
  rcases writeRouted_cases a v s with ⟨ha, e⟩ | ⟨ha, e⟩ | ⟨-, e⟩ | ⟨-, e⟩ | ⟨c, -, e⟩ | e <;> rw [e]
  · exact { h with vramWf := Mem.wf_write v (offsetIn_lt ha hvram) h.vramWf }
  · exact { h with oamWf := Mem.wf_write v (offsetIn_lt ha hoam) h.oamWf }
  · exact ⟨h.asWf, h.vramWf, h.oamWf, h.validCfg, h.counting, h.unbuilt⟩
  · exact h.raise _
  · exact { h with unbuilt := fun hc' => absurd (hc.symm.trans hc') Bool.noConfusion }
  · exact { h with asWf := Mem.wf_write v a.isLt h.asWf }

/-- A trigger starts the count at 0, which is below any valid threshold, and the 160 bytes it copies fit into OAM. -/
theorem StateInv.dmaTrigger {s : State} (h : StateInv s) (hc : s.constructed = true) (p : Byte) :
    StateInv (dmaTrigger p s) := by
  obtain ⟨-, -, hlen, hcycles⟩ := configValid_bounds (h.validCfg hc)
  have started : ∀ m : Mem, Mem.wf s.cfg.oamSize m = true → StateInv { s with dma := dmaStarted, oam := m } :=
    fun m hm => { h with
      oamWf := hm
      counting := fun _ => hcycles
      unbuilt := fun hc' => absurd (hc.symm.trans hc') Bool.noConfusion }
  rcases dmaTrigger_cases p s with ⟨-, e⟩ | ⟨-, -, e⟩ | ⟨-, e⟩ | ⟨-, e⟩ | ⟨-, block, hb, e⟩ <;> rw [e]
  · exact h.raise _
  · exact h.raise _
  · exact h.raise _
  · exact (started s.oam h.oamWf).respond .ok
  · exact (started _ (Mem.wf_writeList block (by omega) h.oamWf)).respond .ok

theorem StateInv.writeByte {s : State} (h : StateInv s) (hc : s.constructed = true) (a : Addr) (v : Byte) :
    StateInv (writeByte a v s) := by
  rcases writeByte_cases a v s with ⟨-, e⟩ | ⟨-, e⟩ | ⟨-, -, -, e⟩ | ⟨-, -, e⟩ <;> rw [e]
  · exact h.dmaTrigger hc v
  · exact h.writeRouted hc a (joypadValue v)
  · exact h.latch.respond .ok
  · exact h.writeRouted hc a v

theorem StateInv.writeWord {s : State} (h : StateInv s) (hc : s.constructed = true) (a : Addr) (v : Word) :
    StateInv (writeWord a v s) := by
  have first := h.writeByte hc a (lowByte v)
  obtain ⟨-, -, hcon, -⟩ := writeByte_keeps a (lowByte v) s
  rcases writeWord_cases a v s with ⟨-, e⟩ | ⟨-, e⟩ <;> rw [e]
  · exact first
  · exact first.writeByte (hcon.trans hc) (nextAddr a) (highByte v)

theorem StateInv.writeBlock {s : State} (h : StateInv s) (a : Addr) (bytes : List Byte) :
    StateInv (writeBlock a bytes s) := by
  rcases writeBlock_cases a bytes s with ⟨-, e⟩ | ⟨hfits, e⟩ <;> rw [e]
  · exact h.raise _
  · exact { h with asWf := Mem.wf_writeList bytes hfits h.asWf }

/-- An advanced engine is Active only while its count is below the threshold (R182). -/
theorem dmaElapse_counting {cycles n : Nat} {d : Dma} (h : (dmaElapse cycles n d).active = true) :
    (dmaElapse cycles n d).elapsed < cycles := by
  cases ha : d.active with
  | true => simpa [dmaElapse, ha] using h
  | false => simp [dmaElapse, ha] at h

theorem StateInv.dmaElapse {s : State} (h : StateInv s) (hc : s.constructed = true) (n : Nat) :
    StateInv { s with dma := dmaElapse s.cfg.dmaCycles n s.dma } :=
  { h with
    counting := dmaElapse_counting
    unbuilt := fun hc' => absurd (hc.symm.trans hc') Bool.noConfusion }

theorem StateInv.readByte {s : State} (h : StateInv s) (a : Addr) : StateInv (readByte a s) := by
  rcases readByte_cases a s with ⟨v, e⟩ | ⟨-, e⟩ <;> rw [e]
  · exact h.respond _
  · exact h.raise _

/-! ### Transactions and steps -/

/-- An accepted transaction of a constructed block keeps the invariant. -/
theorem Effect.keeps_inv {i : Instr} {s t : State} (he : Effect i s t) (hc : s.constructed = true) (h : StateInv s) :
    StateInv t := by
  cases he with
  | readByte a => exact h.readByte a
  | writeByte a v => exact h.writeByte hc a v
  | writeWord a v => exact h.writeWord hc a v
  | writeBlock a bytes => exact h.writeBlock a bytes
  | dmaActive => exact h.respond _
  | dmaAdvance n => exact (h.dmaElapse hc n).respond .ok

theorem exec_keeps_inv {i : Instr} {s t : State} (hi : i.core = i) (hx : exec i s = .next t) (h : StateInv s) :
    StateInv t := by
  obtain ⟨-, ⟨r, rfl⟩ | ⟨⟨-, hc⟩, he⟩ | ⟨⟨-, -, hv⟩, ⟨-, rfl⟩ | ⟨image, -, rfl⟩⟩⟩ := exec_cases hi hx
  · exact h.refuse r
  · exact he.keeps_inv hc h
  · exact h.constructed hv _ none
  · exact h.buildCart hv image

/-- A collaborator's event writes only at an index of its own buffer. -/
theorem StateInv.agentStep {s : State} (h : StateInv s) (e : AgentEvent) : StateInv (agentStep e s) := by
  cases e with
  | ppuVram i v =>
    rw [agentStep_ppuVram]
    exact { h with vramWf := Mem.wf_write_bounded i v h.vramWf }
  | ppuOam i v =>
    rw [agentStep_ppuOam]
    exact { h with oamWf := Mem.wf_write_bounded i v h.oamWf }
  | timer u => exact ⟨h.asWf, h.vramWf, h.oamWf, h.validCfg, h.counting, h.unbuilt⟩

end Sys2Proof.Machine

namespace Sys2Proof.Proofs

open Sys2Proof Sys2Proof.Machine

/-- Settles O47: by the three kinds of step (`step_cases`); taking the input from the queue keeps the invariant, and so
does what is done with it. -/
theorem stepKeepsInv : Obligations.StepKeepsInv := by
  unfold Obligations.StepKeepsInv
  intro s t h hs
  obtain ⟨-, ⟨e, rest, -, rfl⟩ | ⟨r, rest, reason, -, -, rfl⟩ | ⟨r, rest, i, -, -, hi, hx⟩⟩ := step_cases hs
  · exact (h.answered _ _ _ rest).agentStep e
  · exact (h.answered _ _ _ rest).refuse reason
  · exact exec_keeps_inv hi hx (h.answered _ _ _ rest)

end Sys2Proof.Proofs
end

section
/-! PROOF. The writers of each field (10_state.md R20 to R27): what can change a field `f` of the state, said once for
every field that sees neither the queue nor the end of a transaction, then read off field by field. -/

namespace Sys2Proof.Machine

open Sys2Proof

variable {α : Type} {f : State → α}

/-- `f` sees neither the queue nor how a transaction ends: the fault register, the refusal mark, the response. -/
def IgnoresAnswer (f : State → α) : Prop :=
  ∀ (s : State) (code : Option FaultCode) (mark : Bool) (r : Option Response) (xs : List Input),
    f { s with fault := code, refusalMark := mark, response := r, inputs := xs } = f s

theorem IgnoresAnswer.respond (hf : IgnoresAnswer f) (r : Response) (s : State) : f (respond r s) = f s := hf s _ _ _ _

theorem IgnoresAnswer.raise (hf : IgnoresAnswer f) (e : BusFault) (s : State) : f (raise e s) = f s := hf s _ _ _ _

theorem IgnoresAnswer.refuse (hf : IgnoresAnswer f) (r : Reason) (s : State) : f (refuse r s) = f s := hf s _ _ _ _

theorem IgnoresAnswer.inputs (hf : IgnoresAnswer f) (xs : List Input) (s : State) : f { s with inputs := xs } = f s :=
  hf s _ _ _ _

/-- What changed `f` in a transaction that ended with a response is what it did before the response. -/
theorem IgnoresAnswer.ne_of_respond (hf : IgnoresAnswer f) {r : Response} {s u : State}
    (h : f (Machine.respond r u) ≠ f s) : f u ≠ f s := fun e => h ((hf.respond r u).trans e)

/-! ### Byte writes -/

/-- What a byte write of `v` to `a` did in `s` if it changed `f`. -/
inductive ByteWriter (f : State → α) (s : State) (a : Addr) (v : Byte) : Prop where
  | trigger (ha : a = regDma) (m : Mem) (h : f { s with dma := dmaStarted, oam := m } ≠ f s)
  | latch (hb : s.bootMode = true) (ha : a = regBoot) (hv : v = bootDisableValue) (h : f (latch s) ≠ f s)
  | vram (hk : rangeClass s.cfg a = .vram) (m : Mem) (h : f { s with vram := m } ≠ f s)
  | oam (hk : rangeClass s.cfg a = .oam) (m : Mem) (h : f { s with oam := m } ≠ f s)
  | timer (hk : rangeClass s.cfg a = .timer) (u : TimerState) (h : f { s with timer := u } ≠ f s)
  | cart (hk : rangeClass s.cfg a ∈ [WriteClass.cartRom0, .cartRomx, .cartEram]) (c c' : Cart) (hc : s.cart = some c)
      (h : f { s with cart := some c' } ≠ f s)
  | store (ha : a ≠ regDma) (hk : rangeClass s.cfg a = .store) (w : Byte)
      (h : f { s with addressSpace := Mem.write s.addressSpace a.toNat w } ≠ f s)

/-- A trigger that changed `f` took the lock (R172). -/
theorem dmaTrigger_changes (hf : IgnoresAnswer f) {p : Byte} {s : State} (h : f (dmaTrigger p s) ≠ f s) :
    ∃ m, f { s with dma := dmaStarted, oam := m } ≠ f s := by
  rcases dmaTrigger_cases p s with ⟨-, e⟩ | ⟨-, -, e⟩ | ⟨-, e⟩ | ⟨-, e⟩ | ⟨-, block, -, e⟩ <;> rw [e] at h
  · exact absurd (hf.raise _ s) h
  · exact absurd (hf.raise _ s) h
  · exact absurd (hf.raise _ s) h
  · exact ⟨s.oam, hf.ne_of_respond h⟩
  · exact ⟨Mem.writeList s.oam 0 block, hf.ne_of_respond h⟩

/-- A write handed to the cartridge changed `f` only if there is a cartridge (R147). -/
theorem writeCart_changes (hf : IgnoresAnswer f) {a : Addr} {v : Byte} {s : State} (h : f (writeCart a v s) ≠ f s) :
    ∃ c c', s.cart = some c ∧ f { s with cart := some c' } ≠ f s := by
  unfold writeCart at h
  split at h
  · exact absurd (hf.raise _ s) h
  next c hc => exact ⟨c, Config.cartWrite c a v, hc, hf.ne_of_respond h⟩

/-- Steps 4 and 5 write `w`, which is `v` or at 0xFF00 the joypad value, to the owner of `a` (R144 to R148). -/
theorem writeRouted_changes (hf : IgnoresAnswer f) {a : Addr} (ha : a ≠ regDma) {w : Byte} (v : Byte) {s : State}
    (h : f (writeRouted a w s) ≠ f s) : ByteWriter f s a v := by
  have toCart : rangeClass s.cfg a ∈ [WriteClass.cartRom0, .cartRomx, .cartEram] → f (writeCart a w s) ≠ f s →
      ByteWriter f s a v := fun hk hw =>
    have ⟨c, c', hc, hne⟩ := writeCart_changes hf hw
    .cart hk c c' hc hne
  unfold writeRouted at h
  cases hk : rangeClass s.cfg a <;> rw [hk] at h
  case vram => exact .vram hk (writeVram a w s).vram (hf.ne_of_respond h)
  case oam => exact .oam hk (writeOam a w s).oam (hf.ne_of_respond h)
  case timer => exact .timer hk (writeTimer a w s).timer (hf.ne_of_respond h)
  case cartRom0 => exact toCart (by simp [hk]) h
  case cartRomx => exact toCart (by simp [hk]) h
  case cartEram => exact toCart (by simp [hk]) h
  case store => exact .store ha hk w (hf.ne_of_respond h)
  all_goals exact absurd hk (by simp [rangeClass_ne])

theorem writeByte_changes (hf : IgnoresAnswer f) {a : Addr} {v : Byte} {s : State} (h : f (writeByte a v s) ≠ f s) :
    ByteWriter f s a v := by
  rcases writeByte_cases a v s with ⟨ha, e⟩ | ⟨ha, e⟩ | ⟨ha, hv, hb, e⟩ | ⟨ha, -, e⟩ <;> rw [e] at h
  · obtain ⟨m, hm⟩ := dmaTrigger_changes hf h
    exact .trigger ha m hm
  · exact writeRouted_changes hf (ha ▸ regJoyp_ne_regDma) v h
  · exact .latch hb ha hv (hf.ne_of_respond h)
  · exact writeRouted_changes hf ha v h

/-! ### Transactions and steps -/

/-- What a transaction did in `s` if it changed `f`. The second half of a word write acts on what the first left. -/
inductive InstrWriter (f : State → α) (s : State) : Instr → Prop where
  | build {i : Instr} (hi : isConstruction i = true) (hc : s.constructed = false) (boot : Bool) (c : Option Cart)
      (h : f (constructed boot c s) ≠ f s) : InstrWriter f s i
  | advance (n : Nat) (h : f { s with dma := dmaElapse s.cfg.dmaCycles n s.dma } ≠ f s) : InstrWriter f s (.dmaAdvance n)
  | block (a : Addr) (bytes : List Byte)
      (h : f { s with addressSpace := Mem.writeList s.addressSpace a.toNat bytes } ≠ f s) :
      InstrWriter f s (.writeBlock a bytes)
  | byte (a : Addr) (v : Byte) (h : ByteWriter f s a v) : InstrWriter f s (.writeByte a v)
  | low (a : Addr) (v : Word) (h : ByteWriter f s a (lowByte v)) : InstrWriter f s (.writeWord a v)
  | high (a : Addr) (v : Word) (h : ByteWriter f (writeByte a (lowByte v) s) (a + 1) (highByte v)) :
      InstrWriter f s (.writeWord a v)

/-- A word write that changed `f` changed it in one of its halves. -/
theorem writeWord_changes (hf : IgnoresAnswer f) {a : Addr} {v : Word} {s : State} (h : f (writeWord a v s) ≠ f s) :
    InstrWriter f s (.writeWord a v) := by
  by_cases hlow : f (writeByte a (lowByte v) s) = f s
  · rcases writeWord_cases a v s with ⟨-, e⟩ | ⟨-, e⟩ <;> rw [e] at h
    · exact absurd hlow h
    · exact .high a v (writeByte_changes hf (hlow.symm ▸ h))
  · exact .low a v (writeByte_changes hf hlow)

theorem Effect.changes (hf : IgnoresAnswer f) {i : Instr} {s t : State} (he : Effect i s t) (h : f t ≠ f s) :
    InstrWriter f s i := by
  cases he with
  | readByte a =>
    rcases readByte_cases a s with ⟨v, e⟩ | ⟨-, e⟩ <;> rw [e] at h
    · exact absurd (hf.respond _ s) h
    · exact absurd (hf.raise _ s) h
  | writeByte a v => exact .byte a v (writeByte_changes hf h)
  | writeWord a v => exact writeWord_changes hf h
  | writeBlock a bytes =>
    rcases writeBlock_cases a bytes s with ⟨-, e⟩ | ⟨-, e⟩ <;> rw [e] at h
    · exact absurd (hf.raise _ s) h
    · exact .block a bytes (hf.ne_of_respond h)
  | dmaActive => exact absurd (hf.respond _ s) h
  | dmaAdvance n => exact .advance n (hf.ne_of_respond h)

theorem exec_changes (hf : IgnoresAnswer f) {i : Instr} {s t : State} (hi : i.core = i) (hx : exec i s = .next t)
    (h : f t ≠ f s) : InstrWriter f s i := by
  obtain ⟨-, ⟨r, rfl⟩ | ⟨-, he⟩ | ⟨⟨-, hc, -⟩, ⟨rfl, rfl⟩ | ⟨image, rfl, rfl⟩⟩⟩ := exec_cases hi hx
  · exact absurd (hf.refuse r s) h
  · exact he.changes hf h
  · exact .build rfl hc _ _ h
  · rcases buildCart_cases image s with ⟨e, he⟩ | ⟨c, he⟩ <;> rw [he] at h
    · exact absurd (hf.raise e s) h
    · exact .build rfl hc _ _ h

/-- What a step from `s` did if it changed `f`, once it had taken its input from the queue. -/
inductive StepWriter (f : State → α) (s : State) : Prop where
  | agent (e : AgentEvent) (rest : List Input) (hi : s.inputs = .agent e :: rest)
      (h : f (agentStep e { s with inputs := rest }) ≠ f s)
  | request (r : Request) (rest : List Input) (i : Instr) (hi : s.inputs = .transaction r :: rest)
      (hd : decode r = .ok i) (h : InstrWriter f { s with inputs := rest } i)

/-- A step that changed `f` took a collaborator's event, or ran a transaction that changed it. -/
theorem step_changes (hf : IgnoresAnswer f) {s t : State} (hs : step s = .next t) (h : f t ≠ f s) :
    StepWriter f s := by
  obtain ⟨-, ⟨e, rest, hi, rfl⟩ | ⟨r, rest, reason, -, -, rfl⟩ | ⟨r, rest, i, hi, hd, hcore, hx⟩⟩ := step_cases hs
  · exact .agent e rest hi h
  · exact absurd (hf s _ _ _ _) h
  · exact .request r rest i hi hd (exec_changes hf hcore hx fun e => h (e.trans (hf.inputs rest s)))

/-! ### Fields of the collaborators -/

/-- `f` sees the collaborators' own fields only (R26, R27), and the parameters. -/
def SeesCollaborators (f : State → α) : Prop :=
  ∀ s u : State, u.cfg = s.cfg → u.vram = s.vram → u.oam = s.oam → u.timer = s.timer → f u = f s

theorem SeesCollaborators.ignoresAnswer (hf : SeesCollaborators f) : IgnoresAnswer f :=
  fun s _ _ _ _ => hf s _ rfl rfl rfl rfl

/-- The oldest request is a byte write to an address with `c`, or a word write with a half there. -/
def WrittenAt (s : State) (c : Addr → Prop) : Prop :=
  ∃ r rest, s.inputs = .transaction r :: rest ∧
    ((∃ a v, decode r = .ok (.writeByte a v) ∧ c a) ∨ ∃ a v, decode r = .ok (.writeWord a v) ∧ (c a ∨ c (a + 1)))

/-- If a byte write changes a collaborator's field only at an address with `c`, then a step that changes the field is a
collaborator's event or a write at such an address: no other transaction reaches the collaborators. -/
theorem collaborator_changes (hf : SeesCollaborators f) {s t : State} {c : Addr → Prop}
    (hbyte : ∀ u a v, u.cfg = s.cfg → ByteWriter f u a v → c a) (hs : step s = .next t) (hne : f t ≠ f s) :
    (∃ e rest, s.inputs = .agent e :: rest ∧ f (agentStep e { s with inputs := rest }) ≠ f s) ∨ WrittenAt s c := by
  cases step_changes hf.ignoresAnswer hs hne with
  | agent e rest hi h => exact .inl ⟨e, rest, hi, h⟩
  | request r rest i hi hd h =>
    refine .inr ⟨r, rest, hi, ?_⟩
    cases h with
    | build _ _ _ _ h => exact (h (hf _ _ rfl rfl rfl rfl)).elim
    | advance _ h => exact (h (hf _ _ rfl rfl rfl rfl)).elim
    | block _ _ h => exact (h (hf _ _ rfl rfl rfl rfl)).elim
    | byte a v h => exact .inl ⟨a, v, hd, hbyte { s with inputs := rest } a v rfl h⟩
    | low a v h => exact .inr ⟨a, v, hd, .inl (hbyte { s with inputs := rest } a _ rfl h)⟩
    | high a v h =>
      obtain ⟨hcfg, -⟩ := writeByte_keeps a (lowByte v) { s with inputs := rest }
      exact .inr ⟨a, v, hd, .inr (hbyte _ (a + 1) _ hcfg h)⟩

/-! ### One field at a time -/

/-- The class of a routed write names the range its address lies in. -/
theorem rangeClass_contains (c : Params) (a : Addr) :
    (rangeClass c a = .vram → c.vram.contains a = true) ∧ (rangeClass c a = .oam → c.oam.contains a = true) ∧
      (rangeClass c a = .timer → c.timer.contains a = true) := by
  unfold rangeClass
  split_ifs <;> simp_all

theorem ByteWriter.timer_contains {s : State} {a : Addr} {v : Byte} (h : ByteWriter State.timer s a v) :
    s.cfg.timer.contains a = true := by
  cases h with
  | timer hk => exact (rangeClass_contains s.cfg a).2.2 hk
  | _ => contradiction

theorem ByteWriter.vram_contains {s : State} {a : Addr} {v : Byte} (h : ByteWriter State.vram s a v) :
    s.cfg.vram.contains a = true := by
  cases h with
  | vram hk => exact (rangeClass_contains s.cfg a).1 hk
  | _ => contradiction

/-- OAM takes a DMA's copy besides the writes into its range. -/
theorem ByteWriter.oam_contains {s : State} {a : Addr} {v : Byte} (h : ByteWriter State.oam s a v) :
    s.cfg.oam.contains a = true ∨ a = regDma := by
  cases h with
  | oam hk => exact .inl ((rangeClass_contains s.cfg a).2.1 hk)
  | trigger ha => exact .inr ha
  | _ => contradiction

/-- Only a block with a cartridge hands it a write, and only in a cartridge range. -/
theorem ByteWriter.cart_routed {s : State} {a : Addr} {v : Byte} (h : ByteWriter State.cart s a v) :
    s.cart ≠ none ∧ rangeClass s.cfg a ∈ [WriteClass.cartRom0, .cartRomx, .cartEram] := by
  cases h with
  | cart hk c c' hc => exact ⟨by simp [hc], hk⟩
  | _ => contradiction

theorem ByteWriter.dma_addr {s : State} {a : Addr} {v : Byte} (h : ByteWriter State.dma s a v) : a = regDma := by
  cases h with
  | trigger ha => exact ha
  | _ => contradiction

theorem ByteWriter.bootMode_latch {s : State} {a : Addr} {v : Byte} (h : ByteWriter State.bootMode s a v) :
    s.bootMode = true ∧ a = regBoot ∧ v = bootDisableValue := by
  cases h with
  | latch hb ha hv => exact ⟨hb, ha, hv⟩
  | _ => contradiction

/-- The block is in boot mode after a byte write only if it was before (R22). -/
theorem bootMode_of_writeByte {a : Addr} {v : Byte} {s : State} (h : (writeByte a v s).bootMode = true) :
    s.bootMode = true := by
  by_contra hb
  have hne : (writeByte a v s).bootMode ≠ s.bootMode := fun e => hb (e.symm.trans h)
  exact hb (writeByte_changes (f := State.bootMode) (fun _ _ _ _ _ => rfl) hne).bootMode_latch.1

/-- A byte write gives no cartridge to a block without one (R24). -/
theorem cart_ne_none_of_writeByte {a : Addr} {v : Byte} {s : State} (h : (writeByte a v s).cart ≠ none) :
    s.cart ≠ none := by
  intro hc
  have hne : (writeByte a v s).cart ≠ s.cart := fun e => h (e.trans hc)
  exact (writeByte_changes (f := State.cart) (fun _ _ _ _ _ => rfl) hne).cart_routed.1 hc

/-- `AS[k]`. -/
def addressSpaceByte (k : Nat) (s : State) : Byte := Mem.read s.addressSpace k

/-- A byte write changes `AS[k]` by the latch, or by storing at `k` itself. -/
theorem ByteWriter.addressSpace_at {k : Nat} {s : State} {a : Addr} {v : Byte}
    (h : ByteWriter (addressSpaceByte k) s a v) :
    (s.bootMode = true ∧ a = regBoot ∧ v = bootDisableValue) ∨
      (a ≠ regDma ∧ rangeClass s.cfg a = .store ∧ a.toNat = k) := by
  cases h with
  | latch hb ha hv => exact .inl ⟨hb, ha, hv⟩
  | store ha hk w h =>
    refine .inr ⟨ha, hk, ?_⟩
    by_contra hne
    exact h (Mem.read_write_other _ w hne)
  | trigger _ _ h => exact absurd rfl h
  | vram _ _ h => exact absurd rfl h
  | oam _ _ h => exact absurd rfl h
  | timer _ _ h => exact absurd rfl h
  | cart _ _ _ _ h => exact absurd rfl h

theorem writeClass_latch {c : Params} : writeClass c true regBoot bootDisableValue = .bootDisable := by
  simp [writeClass]

/-- Away from 0xFF46 a write is the joypad's, the latch, or of the class the range table gives. -/
theorem writeClass_of_ne_regDma (c : Params) (boot : Bool) {a : Addr} (v : Byte) (ha : a ≠ regDma) :
    writeClass c boot a v = .joypad ∨ writeClass c boot a v = .bootDisable ∨
      writeClass c boot a v = rangeClass c a := by
  unfold writeClass
  rw [if_neg ha]
  split_ifs
  · exact .inl rfl
  · exact .inr (.inl rfl)
  · exact .inr (.inr rfl)

end Sys2Proof.Machine

namespace Sys2Proof.Proofs

open Sys2Proof Sys2Proof.Machine

/-- Settles O49: the only writer of `boot_mode` after the construction is the latch (`ByteWriter.bootMode_latch`), and
that runs in boot mode only. -/
theorem bootModeLeavesOnlyByLatch : Obligations.BootModeLeavesOnlyByLatch := by
  unfold Obligations.BootModeLeavesOnlyByLatch
  intro s t hc hs
  have latched : t.bootMode ≠ s.bootMode → s.bootMode = true ∧ ∃ r rest, s.inputs = .transaction r :: rest ∧
      (decode r = .ok (.writeByte 0xFF50#16 0x01) ∨ ∃ a v, decode r = .ok (.writeWord a v) ∧
        ((a = 0xFF50#16 ∧ lowByte v = 0x01#8) ∨ (a + 1 = 0xFF50#16 ∧ highByte v = 0x01#8))) := by
    intro hne
    cases step_changes (f := State.bootMode) (fun _ _ _ _ _ => rfl) hs hne with
    | agent e rest _ h => exact absurd (congrArg State.bootMode (agentStep_frame e { s with inputs := rest })) h
    | request r rest i hi hd h =>
      cases h with
      | build _ hc' => exact absurd (hc.symm.trans hc') Bool.noConfusion
      | advance _ h => exact absurd rfl h
      | block _ _ h => exact absurd rfl h
      | byte a v h =>
        obtain ⟨hb, rfl, rfl⟩ := h.bootMode_latch
        exact ⟨hb, r, rest, hi, .inl hd⟩
      | low a v h =>
        obtain ⟨hb, ha, hv⟩ := h.bootMode_latch
        exact ⟨hb, r, rest, hi, .inr ⟨a, v, hd, .inl ⟨ha, hv⟩⟩⟩
      | high a v h =>
        obtain ⟨hb, ha, hv⟩ := h.bootMode_latch
        have hb' := bootMode_of_writeByte hb
        exact ⟨hb', r, rest, hi, .inr ⟨a, v, hd, .inr ⟨ha, hv⟩⟩⟩
  constructor
  · intro ht
    by_contra hb
    exact hb (latched fun e => hb (e.symm.trans ht)).1
  · intro hb ht
    exact (latched (by simp [hb, ht])).2

/-- Settles O51: the writers of `AS[k]` among the transactions (`step_changes`), with those of a byte write named by
`ByteWriter.addressSpace_at`. -/
theorem addressSpaceWriters : Obligations.AddressSpaceWriters := by
  unfold Obligations.AddressSpaceWriters
  intro s t k hs hne
  cases step_changes (f := addressSpaceByte k) (fun _ _ _ _ _ => rfl) hs hne with
  | agent e rest _ h =>
    exact absurd (congrArg (addressSpaceByte k) (agentStep_frame e { s with inputs := rest })) h
  | request r rest i hi hd h =>
    refine ⟨r, rest, i, hi, hd, ?_⟩
    cases h with
    | build hi' => exact .inl hi'
    | advance _ h => exact absurd rfl h
    | block a bytes h =>
      refine .inr (.inl ⟨a, bytes, rfl, ?_⟩)
      by_contra hout
      exact h ((Mem.read_writeList bytes _ _ k).trans (if_neg hout))
    | byte a v h =>
      refine .inr (.inr (.inl ⟨a, v, rfl, ?_⟩))
      rcases h.addressSpace_at with ⟨hb, rfl, rfl⟩ | ⟨ha, hk, hak⟩
      · exact .inl (hb ▸ writeClass_latch)
      · rcases writeClass_of_ne_regDma s.cfg s.bootMode v ha with hj | hl | hr
        · exact .inr ⟨.inr hj, hak⟩
        · exact .inl hl
        · exact .inr ⟨.inl (hr.trans hk), hak⟩
    | low a v h =>
      refine .inr (.inr (.inr ⟨a, v, rfl, ?_⟩))
      rcases h.addressSpace_at with ⟨hb, ha, hv⟩ | ⟨-, -, hak⟩
      · exact .inr (.inr ⟨hb, .inl ⟨ha, hv⟩⟩)
      · exact .inl hak
    | high a v h =>
      refine .inr (.inr (.inr ⟨a, v, rfl, ?_⟩))
      rcases h.addressSpace_at with ⟨hb, ha, hv⟩ | ⟨-, -, hak⟩
      · have hb' := bootMode_of_writeByte hb
        exact .inr (.inr ⟨hb', .inr ⟨ha, hv⟩⟩)
      · exact .inr (.inl hak)

/-- Settles O53: construction and advance aside, only a trigger writes the engine (`ByteWriter.dma_addr`). -/
theorem engineWriters : Obligations.EngineWriters := by
  unfold Obligations.EngineWriters
  intro s t hs hne
  cases step_changes (f := State.dma) (fun _ _ _ _ _ => rfl) hs hne with
  | agent e rest _ h => exact absurd (congrArg State.dma (agentStep_frame e { s with inputs := rest })) h
  | request r rest i hi hd h =>
    refine ⟨r, rest, i, hi, hd, ?_⟩
    cases h with
    | build hi' => exact .inl hi'
    | advance n => exact .inr (.inl ⟨n, rfl⟩)
    | block _ _ h => exact absurd rfl h
    | byte a v h => exact .inr (.inr (.inl ⟨v, by rw [h.dma_addr]⟩))
    | low a v h => exact .inr (.inr (.inr ⟨a, v, rfl, .inl h.dma_addr⟩))
    | high a v h => exact .inr (.inr (.inr ⟨a, v, rfl, .inr h.dma_addr⟩))

/-- Settles O54: each collaborator's field changes by an event of its owner (`agentStep_owner`), or by a byte write that
the routing gives to it (`collaborator_changes`). -/
theorem collaboratorWriters : Obligations.CollaboratorWriters := by
  unfold Obligations.CollaboratorWriters
  intro s t hs written
  refine ⟨fun hne => ?_, fun hne => ?_, fun hne => ?_⟩
  · have field : SeesCollaborators State.timer := fun _ _ _ _ _ hf => hf
    rcases collaborator_changes field (fun u a v hcfg h => hcfg ▸ h.timer_contains) hs hne with ⟨e, rest, hi, h⟩ | h
    · obtain ⟨u, rfl⟩ := (agentStep_owner e _).1 h
      exact .inl ⟨u, rest, hi⟩
    · exact .inr h
  · have field : SeesCollaborators State.vram := fun _ _ _ hf _ _ => hf
    rcases collaborator_changes field (fun u a v hcfg h => hcfg ▸ h.vram_contains) hs hne with ⟨e, rest, hi, h⟩ | h
    · obtain ⟨k, v, rfl⟩ := (agentStep_owner e _).2.1 h
      exact .inl ⟨k, v, rest, hi⟩
    · exact .inr h
  · have field : SeesCollaborators State.oam := fun _ _ _ _ hf _ => hf
    rcases collaborator_changes field (fun u a v hcfg h => hcfg ▸ h.oam_contains) hs hne with ⟨e, rest, hi, h⟩ | h
    · obtain ⟨k, v, rfl⟩ := (agentStep_owner e _).2.2 h
      exact .inl ⟨k, v, rest, hi⟩
    · exact .inr h

/-- Settles O52: the only writer of the cartridge after the construction is a write routed to it
(`ByteWriter.cart_routed`), which takes a cartridge to be there. -/
theorem cartridgeChangesOnlyByItsWrites : Obligations.CartridgeChangesOnlyByItsWrites := by
  unfold Obligations.CartridgeChangesOnlyByItsWrites
  intro s t hc hs
  have routed : t.cart ≠ s.cart →
      s.cart ≠ none ∧ WrittenAt s fun a => rangeClass s.cfg a ∈ [WriteClass.cartRom0, .cartRomx, .cartEram] := by
    intro hne
    cases step_changes (f := State.cart) (fun _ _ _ _ _ => rfl) hs hne with
    | agent e rest _ h => exact absurd (congrArg State.cart (agentStep_frame e { s with inputs := rest })) h
    | request r rest i hi hd h =>
      cases h with
      | build _ hc' => exact absurd (hc.symm.trans hc') Bool.noConfusion
      | advance _ h => exact absurd rfl h
      | block _ _ h => exact absurd rfl h
      | byte a v h =>
        obtain ⟨hcart, hk⟩ := h.cart_routed
        exact ⟨hcart, r, rest, hi, .inl ⟨a, v, hd, hk⟩⟩
      | low a v h =>
        obtain ⟨hcart, hk⟩ := h.cart_routed
        exact ⟨hcart, r, rest, hi, .inr ⟨a, v, hd, .inl hk⟩⟩
      | high a v h =>
        obtain ⟨hcart, hk⟩ := h.cart_routed
        obtain ⟨hcfg, -⟩ := writeByte_keeps a (lowByte v) { s with inputs := rest }
        rw [hcfg] at hk
        have hcart' := cart_ne_none_of_writeByte hcart
        exact ⟨hcart', r, rest, hi, .inr ⟨a, v, hd, .inr hk⟩⟩
  constructor
  · intro hnone
    by_contra ht
    exact (routed fun e => ht (e.trans hnone)).1 hnone
  · exact fun hne => (routed hne).2

end Sys2Proof.Proofs
end

section
/-! PROOF. The map of 20_memory.md: a valid configuration's ranges are pairwise apart and hold no register (R52), so the
owner of a read owns the write too (R59). -/

namespace Sys2Proof.Machine

open Sys2Proof

/-! ### Ranges apart (R52) -/

/-- No address lies in both ranges. -/
def Apart (p q : Range) : Prop := ∀ a : Addr, p.contains a = true → q.contains a = false

theorem Apart.symm {p q : Range} (h : Apart p q) : Apart q p := fun a hq =>
  Bool.eq_false_iff.mpr fun hp => Bool.false_ne_true ((h a hp).symm.trans hq)

/-- Two inclusive ranges are apart if one of them is empty, or one ends before the other begins; were neither so, the
larger of their first addresses would lie in both. -/
theorem apart_iff (p q : Range) : p.hi < p.lo ∨ q.hi < q.lo ∨ p.hi < q.lo ∨ q.hi < p.lo ↔ Apart p q := by
  simp only [Apart, Range.contains, Bool.and_eq_true, Bool.and_eq_false_iff, decide_eq_true_eq,
    decide_eq_false_iff_not, BitVec.le_def, BitVec.lt_def]
  constructor
  · intro h a ha
    omega
  · intro h
    have at_lo := h p.lo
    have at_lo' := h q.lo
    omega

/-- At most one range of a list holds each address exactly when the ranges are pairwise apart. -/
theorem countP_contains_le_one_iff (rs : List Range) :
    (∀ a : Addr, rs.countP (fun r => r.contains a) ≤ 1) ↔ rs.Pairwise Apart := by
  induction rs with
  | nil => simp
  | cons r rs ih =>
    rw [List.pairwise_cons, ← ih]
    have none_in_rest (a : Addr) : (∀ q ∈ rs, q.contains a = false) ↔ rs.countP (fun q => q.contains a) = 0 := by
      simp [List.countP_eq_zero]
    constructor
    · intro h
      refine ⟨fun q hq a ha => (none_in_rest a).mpr ?_ q hq, fun a => ?_⟩
      · simpa [List.countP_cons, ha] using h a
      · exact ((List.sublist_cons_self r rs).countP_le).trans (h a)
    · rintro ⟨hr, hrs⟩ a
      cases ha : r.contains a with
      | true => simp [ha, (none_in_rest a).mp fun q hq => hr q hq a ha]
      | false => simpa [List.countP_cons, ha] using hrs a

/-- The six ranges of R52. -/
def mapRanges (c : Params) : List Range := [c.rom0, c.romx, c.eram, c.vram, c.oam, c.timer]

/-- What `configValid` checks, constraint by constraint (R52, R7). -/
theorem configValid_iff (c : Params) :
    configValid c = true ↔
      (mapRanges c).Pairwise Apart ∧
      (∀ r ∈ mapRanges c, r.contains regJoyp = false ∧ r.contains regDma = false ∧ r.contains regBoot = false) ∧
      c.vram.contains 0x8000#16 = true ∧
      c.timerLo.toNat + 3 < 0x10000 ∧
      c.vram.hi.toNat + 1 - c.vram.lo.toNat ≤ c.vramSize ∧
      c.oam.hi.toNat + 1 - c.oam.lo.toNat ≤ c.oamSize ∧
      dmaLen ≤ c.oamSize ∧ 1 ≤ c.dmaCycles := by
  have window : c.timerLo ≤ 0xFFFC#16 ↔ c.timerLo.toNat + 3 < 0x10000 := by
    simp only [BitVec.le_def, BitVec.toNat_ofNat]
    omega
  simp only [configValid, mapRanges, Bool.and_eq_true, Bool.or_eq_true, decide_eq_true_eq, or_assoc, apart_iff, window,
    List.all_eq_true, Bool.not_eq_true', List.pairwise_cons, List.forall_mem_cons, List.not_mem_nil, false_imp_iff,
    implies_true, List.Pairwise.nil, and_true, and_assoc]

/-- A construction under a configuration that fails R52 is refused (log entry 15). -/
theorem construct_invalid {k : State → State} {s : State} (hf : s.fault = none) (hc : s.constructed = false)
    (hv : configValid s.cfg = false) : construct k s = .refused .badConfiguration := by
  simp [construct, hf, hc, hv]

/-! ### The owner of a write (R57, R59) -/

/-- The class of a write is a register's, with what picks it, or the range table's. -/
theorem writeClass_cases (c : Params) (boot : Bool) (a : Addr) (v : Byte) :
    (a = regDma ∧ writeClass c boot a v = .dmaTrigger) ∨
      (a = regJoyp ∧ writeClass c boot a v = .joypad) ∨
      ((boot = true ∧ a = regBoot ∧ v = bootDisableValue) ∧ writeClass c boot a v = .bootDisable) ∨
      writeClass c boot a v = rangeClass c a := by
  unfold writeClass
  split_ifs with hdma hjoyp hlatch
  · exact .inl ⟨hdma, rfl⟩
  · exact .inr (.inl ⟨hjoyp, rfl⟩)
  · exact .inr (.inr (.inl ⟨by simpa [and_assoc] using hlatch, rfl⟩))
  · exact .inr (.inr (.inr rfl))

/-- No range holds a register, so a write in a range is of the class the range table gives. -/
theorem writeClass_of_contains {c : Params} (hv : configValid c = true) {r : Range} (hr : r ∈ mapRanges c) {a : Addr}
    (ha : r.contains a = true) (boot : Bool) (v : Byte) : writeClass c boot a v = rangeClass c a := by
  obtain ⟨-, registers, -⟩ := (configValid_iff c).mp hv
  obtain ⟨hjoyp, hdma, hboot⟩ := registers r hr
  rcases writeClass_cases c boot a v with ⟨rfl, -⟩ | ⟨rfl, -⟩ | ⟨⟨-, rfl, -⟩, -⟩ | h
  · exact absurd (ha.symm.trans hdma) Bool.noConfusion
  · exact absurd (ha.symm.trans hjoyp) Bool.noConfusion
  · exact absurd (ha.symm.trans hboot) Bool.noConfusion
  · exact h

/-- A range that holds an address is the only one, so the range table gives the address to its owner. -/
theorem rangeClass_of_contains {c : Params} (hv : configValid c = true) (a : Addr) :
    (c.rom0.contains a = true → rangeClass c a = .cartRom0) ∧
      (c.romx.contains a = true → rangeClass c a = .cartRomx) ∧
      (c.eram.contains a = true → rangeClass c a = .cartEram) ∧
      (c.vram.contains a = true → rangeClass c a = .vram) ∧
      (c.oam.contains a = true → rangeClass c a = .oam) := by
  have apart := ((configValid_iff c).mp hv).1
  simp only [mapRanges, List.pairwise_cons, List.forall_mem_cons] at apart
  obtain ⟨⟨h0x, h0e, h0v, h0o, h0t, -⟩, ⟨hxe, hxv, hxo, hxt, -⟩, ⟨hev, heo, het, -⟩, ⟨hvo, -⟩, -⟩ := apart
  refine ⟨fun ha => ?_, fun ha => ?_, fun ha => ?_, fun ha => ?_, fun ha => ?_⟩
  · simp [rangeClass, ha, h0v a ha, h0o a ha, h0t a ha]
  · simp [rangeClass, ha, hxv a ha, hxo a ha, hxt a ha, h0x.symm a ha]
  · simp [rangeClass, ha, hev a ha, heo a ha, het a ha, h0e.symm a ha, hxe.symm a ha]
  · simp [rangeClass, ha]
  · simp [rangeClass, ha, hvo.symm a ha]

/-- An address that no collaborator's range holds is the timer's or storage. -/
theorem rangeClass_unowned {c : Params} {a : Addr} (h0 : ¬c.rom0.contains a = true) (hx : ¬c.romx.contains a = true)
    (he : ¬c.eram.contains a = true) (hv : ¬c.vram.contains a = true) (ho : ¬c.oam.contains a = true) :
    (c.timer.contains a = true ∧ rangeClass c a = .timer) ∨ rangeClass c a = .store := by
  cases ht : c.timer.contains a with
  | true => exact .inl ⟨rfl, by simp [rangeClass, hv, ho, ht]⟩
  | false => exact .inr (by simp [rangeClass, h0, hx, he, hv, ho, ht])

end Sys2Proof.Machine

namespace Sys2Proof.Proofs

open Sys2Proof Sys2Proof.Machine

/-- Settles O10: the check is the constraints one by one (`configValid_iff`), and pairwise apart means at most one range
for each address (`countP_contains_le_one_iff`). -/
theorem configurationConstraints : Obligations.ConfigurationConstraints := by
  unfold Obligations.ConfigurationConstraints
  refine ⟨fun c => ?_, fun s i hf hc hi hv => ?_, by decide⟩
  · exact (configValid_iff c).trans (and_congr_left fun _ => (countP_contains_le_one_iff (mapRanges c)).symm)
  · cases i with
    | constructBlank => exact construct_invalid hf hc hv
    | constructCart image => exact construct_invalid hf hc hv
    | _ => exact absurd hi Bool.false_ne_true

/-- Settles O45: along the arms of `readClass`; a collaborator's range gives the write to the same owner, and an address
in none of them is a register, the timer's or storage. -/
theorem ownersAgree : Obligations.OwnersAgree := by
  unfold Obligations.OwnersAgree
  intro c boot a v hv
  obtain ⟨rom0, romx, eram, vram, oam⟩ := rangeClass_of_contains hv a
  have routed (r : Range) (hr : r ∈ mapRanges c) (ha : r.contains a = true) := writeClass_of_contains hv hr ha boot v
  unfold readClass
  split_ifs with hboot h0 hx he hvram hoam
  · simpa using hboot
  · exact (routed c.rom0 (by simp [mapRanges]) h0).trans (rom0 h0)
  · exact (routed c.romx (by simp [mapRanges]) hx).trans (romx hx)
  · exact (routed c.eram (by simp [mapRanges]) he).trans (eram he)
  · exact (routed c.vram (by simp [mapRanges]) hvram).trans (vram hvram)
  · exact (routed c.oam (by simp [mapRanges]) hoam).trans (oam hoam)
  · rcases writeClass_cases c boot a v with ⟨ha, e⟩ | ⟨ha, e⟩ | ⟨hl, e⟩ | e <;> rw [e]
    · exact ha
    · exact ha
    · exact hl
    · rcases rangeClass_unowned h0 hx he hvram hoam with ⟨ht, e⟩ | e <;> rw [e]
      · exact ht
      · trivial

end Sys2Proof.Proofs
end

section
/-! PROOF. Reads and storage of 20_memory.md: a read changes nothing (R65), a stored byte is read back at its own address
only (R60, R66), and a word lies little-endian (R61). -/

namespace Sys2Proof.Machine

open Sys2Proof

/-! ### Reads -/

/-- A class row whose body is the read path where its class holds runs as `READ_BYTE`. -/
theorem transact_readAs {k : ReadClass} {body : Addr → State → State} {a : Addr}
    (h : ∀ u : State, readClass u.cfg u.bootMode a = k → readByte a u = body a u) (s : State) :
    transact (readAs k body a) s = transact (readByte a) s :=
  congrArg (transact · s) (funext fun u => readAs_eq (h u))

/-- Every read, class rows included, runs the read path at its address. -/
theorem exec_read {i : Instr} (h : isRead i = true) : ∃ a, ∀ s, exec i s = transact (readByte a) s := by
  cases i with
  | readByte a => exact ⟨a, fun _ => rfl⟩
  | readByteBoot a => exact ⟨a, transact_readAs fun _ => readByte_boot⟩
  | readByteCartRom0 a => exact ⟨a, transact_readAs fun _ => readByte_cartRom0⟩
  | readByteCartRomx a => exact ⟨a, transact_readAs fun _ => readByte_cartRomx⟩
  | readByteCartEram a => exact ⟨a, transact_readAs fun _ => readByte_cartEram⟩
  | readByteVram a => exact ⟨a, transact_readAs fun _ => readByte_vram⟩
  | readByteOam a => exact ⟨a, transact_readAs fun _ => readByte_oam⟩
  | readByteStore a => exact ⟨a, transact_readAs fun _ => readByte_store⟩
  | _ => exact absurd h Bool.false_ne_true

/-! ### Storage -/

/-- A read of storage answers the byte of `AS` (R125). -/
theorem exec_readByte_store {s : State} {a : Addr} (hs : Ready s) (h : readClass s.cfg s.bootMode a = .store) :
    exec (.readByte a) s = .next { s with response := some (.rdata (Mem.read s.addressSpace a.toNat)) } :=
  (transact_ready hs).trans (congrArg _ (readByte_store h))

/-- A write to storage stores its byte (R148). -/
theorem exec_writeByte_store {s : State} {a : Addr} {v : Byte} (hs : Ready s)
    (h : writeClass s.cfg s.bootMode a v = .store) : exec (.writeByte a v) s = .next (writeStore a v s) :=
  (transact_ready hs).trans (congrArg _ (writeByte_store h))

/-- A word write whose halves are both of storage stores both bytes, the low one first (R149). -/
theorem writeWord_store {s : State} {a : Addr} {v : Word} (hf : s.fault = none)
    (hlow : writeClass s.cfg s.bootMode a (lowByte v) = .store)
    (hhigh : writeClass s.cfg s.bootMode (nextAddr a) (highByte v) = .store) :
    writeWord a v s = writeStore (nextAddr a) (highByte v) (writeStore a (lowByte v) s) := by
  have first : writeByte a (lowByte v) s = writeStore a (lowByte v) s := writeByte_store hlow
  rcases writeWord_cases a v s with ⟨hfault, -⟩ | ⟨-, e⟩
  · exact absurd (first ▸ hf) hfault
  · rw [e, first]
    exact writeByte_store hhigh

/-- The second half of a word never lies on the first (R149). -/
theorem toNat_ne_toNat_add_one (a : Addr) : a.toNat ≠ (a + 1).toNat := by
  bv_omega

end Sys2Proof.Machine

namespace Sys2Proof.Proofs

open Sys2Proof Sys2Proof.Machine

/-- Settles O15: every read is the read path (`exec_read`), and that answers a byte or finds no cartridge
(`readByte_cases`). -/
theorem readsChangeNothing : Obligations.ReadsChangeNothing := by
  unfold Obligations.ReadsChangeNothing
  intro s t i hs hi hx
  obtain ⟨a, run⟩ := exec_read hi
  rw [run, transact_ready hs] at hx
  cases hx
  rcases readByte_cases a s with ⟨v, e⟩ | ⟨hcart, e⟩
  · exact .inl ⟨v, e⟩
  · exact .inr ⟨hcart, a, e⟩

/-- Settles O46: the write is one byte of `AS` (`exec_writeByte_store`), and it leaves the routing of reads as it was. -/
theorem storedByteIsReadBackNowhereElse : Obligations.StoredByteIsReadBackNowhereElse := by
  unfold Obligations.StoredByteIsReadBackNowhereElse
  intro s a v hs hw
  have ready : Ready (writeStore a v s) := hs
  refine ⟨writeStore a v s, exec_writeByte_store hs hw, fun ha => ?_, fun b hb hr => ?_⟩
  · simp [exec_readByte_store ready ha]
  · have hne : a.toNat ≠ b.toNat := fun e => hb (BitVec.eq_of_toNat_eq e.symm)
    simp [exec_readByte_store ready hr, Mem.read_write_other _ v hne]

/-- Settles O23: the word write is two writes to storage (`writeWord_store`) at different addresses. -/
theorem wordLiesLittleEndian : Obligations.WordLiesLittleEndian := by
  unfold Obligations.WordLiesLittleEndian
  intro s a v hs hlow hhigh
  have run : exec (.writeWord a v) s = .next (writeStore (a + 1) (highByte v) (writeStore a (lowByte v) s)) :=
    (transact_ready hs).trans (congrArg _ (writeWord_store hs.1 hlow hhigh))
  have apart := toNat_ne_toNat_add_one a
  refine ⟨_, run, ?_, Mem.read_write_self .., fun k hk hk' => ?_, rfl⟩
  · exact (Mem.read_write_other _ _ apart.symm).trans (Mem.read_write_self ..)
  · exact (Mem.read_write_other _ _ hk'.symm).trans (Mem.read_write_other _ _ hk.symm)

end Sys2Proof.Proofs
end

section
/-! PROOF. The request decoder of 30_encoding.md (R80 to R84): it inverts the encoder on the transaction kinds, refuses
exactly what R82 leaves out of the op codes of the table, and what the lifecycle refuses is decided after it. -/

namespace Sys2Proof

open Sys2Proof.Machine

/-! ### Transaction kinds and their requests (R81) -/

@[simp] theorem Instr.core_core (i : Instr) : i.core.core = i.core := by
  cases i <;> rfl

/-- A class row gives the request of its transaction. -/
theorem encode_core (i : Instr) : encode i.core = encode i := by
  unfold encode
  rw [Instr.core_core]

theorem wellFormed_core {i : Instr} (h : i.wellFormed = true) : i.core.wellFormed = true := by
  cases i with
  | reserved op addr data att => exact h
  | _ => rfl

/-- A request is the packing of four fields exactly when these are its fields (R80). -/
theorem Request.pack_eq_iff {op : BitVec 4} {a d : BitVec 16} {att : Attachment} {r : Request} :
    Request.pack op a d att = r ↔ r.op = op ∧ r.addr = a ∧ r.data = d ∧ r.att = att := by
  constructor
  · rintro rfl
    simp
  · rintro ⟨rfl, rfl, rfl, rfl⟩
    exact r.pack_fields

/-! ### Decoding inverts encoding -/

/-- A reserved op code decodes with every field it came with (R83). -/
theorem decode_pack_reserved {op : BitVec 4} (h : 8 ≤ op.toNat) (a d : BitVec 16) (att : Attachment) :
    decode (Request.pack op a d att) = .ok (.reserved op a d att) := by
  unfold decode
  simp only [Request.pack_op, Request.pack_addr, Request.pack_data, Request.pack_att]
  split
  case h_9 => rfl
  all_goals omega

/-- The request of a well-formed transaction kind decodes to it (R81 to R83). -/
theorem decode_encode_of_core {i : Instr} (hi : i.core = i) (hw : i.wellFormed = true) : decode (encode i) = .ok i := by
  cases i with
  | readByte | writeByte | writeWord | writeBlock | dmaActive | dmaAdvance | constructBlank | constructCart =>
    simp [encode, Instr.core, decode]
  | reserved op addr data att => exact decode_pack_reserved (by simpa [Instr.wellFormed, BitVec.le_def] using hw) ..
  | _ => exact Instr.noConfusion hi

/-- What decoding can do: refuse with `BadOperand`, or answer a well-formed instruction that the request encodes. The
check of each op code leaves no field free but the operands. -/
theorem decode_cases (r : Request) :
    decode r = .error .badOperand ∨ ∃ i, decode r = .ok i ∧ i.wellFormed = true ∧ encode i = r := by
  have packed {op : BitVec 4} {a d : BitVec 16} {att : Attachment} (hop : r.op.toNat = op.toNat) (ha : r.addr = a)
      (hd : r.data = d) (hatt : r.att = att) : Request.pack op a d att = r :=
    Request.pack_eq_iff.mpr ⟨BitVec.eq_of_toNat_eq hop, ha, hd, hatt⟩
  unfold decode
  dsimp only
  split
  case h_1 hop =>
    split
    next hc => exact .inr ⟨_, rfl, rfl, packed hop rfl hc.1 hc.2⟩
    next => exact .inl rfl
  case h_2 hop =>
    split
    next hc => exact .inr ⟨_, rfl, rfl, packed hop rfl (zext16_lowByte hc.1).symm hc.2⟩
    next => exact .inl rfl
  case h_3 hop =>
    split
    next hatt => exact .inr ⟨_, rfl, rfl, packed hop rfl rfl hatt⟩
    next => exact .inl rfl
  case h_4 hop =>
    split
    next hatt =>
      split
      next hd => exact .inr ⟨_, rfl, rfl, packed hop rfl hd hatt⟩
      next => exact .inl rfl
    next => exact .inl rfl
  case h_5 hop =>
    split
    next hc => exact .inr ⟨_, rfl, rfl, packed hop hc.1 hc.2.1 hc.2.2⟩
    next => exact .inl rfl
  case h_6 hop =>
    split
    next hatt =>
      split
      next hc => exact .inr ⟨_, rfl, rfl, packed hop hc.1 hc.2 hatt⟩
      next => exact .inl rfl
    next => exact .inl rfl
  case h_7 hop =>
    split
    next hc => exact .inr ⟨_, rfl, rfl, packed hop hc.1 hc.2.1 hc.2.2⟩
    next => exact .inl rfl
  case h_8 hop =>
    split
    next hatt =>
      split
      next hc => exact .inr ⟨_, rfl, rfl, packed hop hc.1 hc.2 hatt⟩
      next => exact .inl rfl
    next => exact .inl rfl
  case h_9 =>
    refine .inr ⟨_, rfl, ?_, r.pack_fields⟩
    simp only [Instr.wellFormed, decide_eq_true_eq, BitVec.le_def, BitVec.toNat_ofNat, imp_false] at *
    omega

/-- What decodes is well-formed, and the request is its encoding. -/
theorem wellFormed_and_encode_of_decode {r : Request} {i : Instr} (h : decode r = .ok i) :
    i.wellFormed = true ∧ encode i = r := by
  rcases decode_cases r with e | ⟨j, e, hj⟩ <;> rw [e] at h <;> cases h
  exact hj

/-- `BadOperand` is the only reason the decoder gives (R82). -/
theorem decode_error {r : Request} {reason : Reason} (h : decode r = .error reason) : reason = .badOperand := by
  rcases decode_cases r with e | ⟨j, e, -⟩ <;> rw [e] at h <;> cases h
  rfl

/-! ### Well-formed requests (R82) -/

/-- The request of a transaction kind with an op code of the table meets its row's conditions. -/
theorem fits_encode {i : Instr} (hi : i.core = i) (hr : isReserved i = false) : Fits (encode i) := by
  cases i with
  | readByte | writeByte | writeWord | writeBlock | dmaActive | dmaAdvance | constructBlank | constructCart =>
    simp [Fits, encode, Instr.core]
  | reserved op addr data att => exact absurd hr Bool.noConfusion
  | _ => exact Instr.noConfusion hi

/-- Each row of R81 decodes to its transaction kind. -/
theorem decode_of_fits {r : Request} (h : Fits r) : ∃ i, decode r = .ok i := by
  have spells (i : Instr) (hi : i.core = i) (hw : i.wellFormed = true) (e : encode i = r) : ∃ i, decode r = .ok i :=
    ⟨i, e ▸ decode_encode_of_core hi hw⟩
  rcases h with ⟨hop, hd, hatt⟩ | ⟨hop, hd, hatt⟩ | ⟨hop, hatt⟩ | ⟨hop, hd, bytes, hatt⟩ | h | ⟨hop, ha, hd, n, hatt⟩ |
    h | ⟨hop, ha, hd, image, hatt⟩
  · exact spells (.readByte r.addr) rfl rfl (Request.pack_eq_iff.mpr ⟨hop, rfl, hd, hatt⟩)
  · exact spells (.writeByte r.addr (lowByte r.data)) rfl rfl
      (Request.pack_eq_iff.mpr ⟨hop, rfl, (zext16_lowByte hd).symm, hatt⟩)
  · exact spells (.writeWord r.addr r.data) rfl rfl (Request.pack_eq_iff.mpr ⟨hop, rfl, rfl, hatt⟩)
  · exact spells (.writeBlock r.addr bytes) rfl rfl (Request.pack_eq_iff.mpr ⟨hop, rfl, hd, hatt⟩)
  · exact spells .dmaActive rfl rfl (Request.pack_eq_iff.mpr h)
  · exact spells (.dmaAdvance n) rfl rfl (Request.pack_eq_iff.mpr ⟨hop, ha, hd, hatt⟩)
  · exact spells .constructBlank rfl rfl (Request.pack_eq_iff.mpr h)
  · exact spells (.constructCart image) rfl rfl (Request.pack_eq_iff.mpr ⟨hop, ha, hd, hatt⟩)

/-- A request with an op code of the table that decodes meets R82's conditions. -/
theorem fits_of_decode {r : Request} {i : Instr} (h : decode r = .ok i) (hop : r.op.toNat < 8) : Fits r := by
  obtain ⟨hw, rfl⟩ := wellFormed_and_encode_of_decode h
  refine fits_encode (decode_core h) ?_
  cases i with
  | reserved op addr data att =>
    have hle : 8 ≤ op.toNat := by simpa [Instr.wellFormed, BitVec.le_def] using hw
    have hlt : op.toNat < 8 := by simpa [encode, Instr.core] using hop
    exact absurd hle (Nat.not_le.mpr hlt)
  | _ => rfl

end Sys2Proof

namespace Sys2Proof.Machine

open Sys2Proof

/-- A request that does not decode is refused and changes nothing else (R82, R205). -/
theorem step_undecoded {s : State} {r : Request} {rest : List Input} {e : Reason} (hf : s.fault = none)
    (hi : s.inputs = .transaction r :: rest) (hd : decode r = .error e) :
    step s = .next (refuse e { s with inputs := rest }) := by
  simp only [step, fetch_request hf hi, hd]

/-- What is neither a construction nor a reserved op code passes R84's guard first. -/
theorem exec_eq_transact {i : Instr} (hc : isConstruction i = false) (hr : isReserved i = false) :
    ∃ k, ∀ s, exec i s = transact k s := by
  cases i with
  | constructBlank => exact absurd hc Bool.noConfusion
  | constructCart image => exact absurd hc Bool.noConfusion
  | reserved op addr data att => exact absurd hr Bool.noConfusion
  | _ => exact ⟨_, fun _ => rfl⟩

/-- A construction passes its own guard first (R84). -/
theorem exec_eq_construct {i : Instr} (hc : isConstruction i = true) : ∃ k, ∀ s, exec i s = construct k s := by
  cases i with
  | constructBlank => exact ⟨buildBlank, fun _ => rfl⟩
  | constructCart image => exact ⟨buildCart image, fun _ => rfl⟩
  | _ => exact absurd hc Bool.noConfusion

end Sys2Proof.Machine

namespace Sys2Proof.Proofs

open Sys2Proof Sys2Proof.Machine

/-- Settles O42: the request of an instruction is that of its transaction kind (`encode_core`), whose decoding gives the
kind back (`decode_encode_of_core`). -/
theorem decodeEncodeRoundTrip : Obligations.DecodeEncodeRoundTrip := by
  unfold Obligations.DecodeEncodeRoundTrip
  intro i hw
  rw [← encode_core]
  exact decode_encode_of_core i.core_core (wellFormed_core hw)

/-- Settles O2: a request that does not fit does not decode (`fits_of_decode`), and `BadOperand` is the one reason the
decoder gives; a request that fits decodes (`decode_of_fits`), to an instruction whose encoding it is. -/
theorem illFormedRequestIsRefused : Obligations.IllFormedRequestIsRefused := by
  unfold Obligations.IllFormedRequestIsRefused
  refine ⟨fun s r rest hf hi hop hfit => ?_, fun r hfit => ?_⟩
  · cases hd : decode r with
    | ok i => exact absurd (fits_of_decode hd hop) hfit
    | error e =>
      obtain rfl := decode_error hd
      exact step_undecoded hf hi hd
  · obtain ⟨i, hd⟩ := decode_of_fits hfit
    exact ⟨i, hd, (wellFormed_and_encode_of_decode hd).2⟩

/-- Settles O3: no row of the table takes the op code (`decode_pack_reserved`), and the reserved row only refuses. -/
theorem reservedOpIsRefused : Obligations.ReservedOpIsRefused := by
  unfold Obligations.ReservedOpIsRefused
  intro s op addr data att hf hop
  exact ⟨decode_pack_reserved hop addr data att, unknown_ready hf⟩

/-- Settles O4: every instruction but a reserved one passes one of the two guards of R84 (`exec_eq_transact`,
`exec_eq_construct`). -/
theorem lifecycleRefusals : Obligations.LifecycleRefusals := by
  unfold Obligations.LifecycleRefusals
  refine ⟨fun s i hf hc hcon hres => ?_, fun s i hs hcon => ?_⟩
  · obtain ⟨k, run⟩ := exec_eq_transact hcon hres
    exact (run s).trans (transact_unbuilt hf hc)
  · obtain ⟨k, run⟩ := exec_eq_construct hcon
    exact (run s).trans (construct_built hs)

/-- Settles O44: each word is evaluated. -/
theorem specWordsDecode : Obligations.SpecWordsDecode := by
  unfold Obligations.SpecWordsDecode
  decide

/-- Settles O48: memory is empty at reset, the engine is idle, and the default parameters meet R52. -/
theorem resetInv : Obligations.ResetInv := by
  unfold Obligations.ResetInv
  have inv : StateInv State.reset :=
    { asWf := rfl
      vramWf := rfl
      oamWf := rfl
      validCfg := fun _ => by decide
      counting := by decide
      unbuilt := fun _ => ⟨rfl, rfl⟩ }
  exact ⟨inv, by decide, by decide⟩

end Sys2Proof.Proofs
end

section
/-! PROOF. The class rows of the opcode table (30_encoding.md R85): each runs as its transaction, and the mask and match
rows give the routing of 20_memory.md R56 and R57 and of 43_dma.md R173 under the default `MAP`. -/

namespace Sys2Proof

/-! ### Rows as ranges -/

/-- Masking off the `n` low bits finds the block of `2 ^ n` values that a multiple of `2 ^ n` starts. -/
theorem and_allOnes_shiftLeft_eq_iff {w n : Nat} {k pat : BitVec w} (hpat : 2 ^ n ∣ pat.toNat) :
    k &&& BitVec.allOnes w <<< n = pat ↔ pat.toNat ≤ k.toNat ∧ k.toNat ≤ pat.toNat + 2 ^ n - 1 := by
  have hpos : 0 < 2 ^ n := Nat.two_pow_pos n
  have masked : (k &&& BitVec.allOnes w <<< n).toNat = k.toNat / 2 ^ n * 2 ^ n := by
    rw [← BitVec.shiftLeft_ushiftRight, BitVec.toNat_shiftLeft, BitVec.toNat_ushiftRight, Nat.shiftRight_eq_div_pow,
      Nat.shiftLeft_eq, Nat.mod_eq_of_lt ((Nat.div_mul_le_self _ _).trans_lt k.isLt)]
  obtain ⟨q, hq⟩ := hpat
  rw [← BitVec.toNat_inj, masked, hq, mul_comm (2 ^ n) q, Nat.mul_left_inj hpos.ne', Nat.div_eq_iff hpos]

/-- The row matches on the op code and on all but the `n` low bits of the address, from the first address of `rng`, and
its `addr_hi` cuts that block of `2 ^ n` addresses off at the last one of `rng`. -/
abbrev Row.Spans {κ : Type} (r : Row κ) (op : BitVec 4) (n : Nat) (rng : Range) : Prop :=
  n ≤ 16 ∧ r.mask = BitVec.allOnes 20 <<< n ∧ r.pat = op ++ rng.lo ∧ 2 ^ n ∣ rng.lo.toNat ∧
    rng.hi.toNat = min (rng.lo.toNat + 2 ^ n - 1) r.hi.toNat

/-- The value of a key `K = op ‖ addr` (R85). -/
theorem toNat_key (op : BitVec 4) (a : Addr) : (op ++ a).toNat = op.toNat * 2 ^ 16 + a.toNat := by
  rw [BitVec.toNat_append, ← Nat.shiftLeft_add_eq_or_of_lt a.isLt, Nat.shiftLeft_eq]

/-- A row hits a key of its op code exactly where its range holds the address and its condition holds. -/
theorem Row.hits_of_spans {κ : Type} {r : Row κ} {op : BitVec 4} {n : Nat} {rng : Range} (h : Row.Spans r op n rng)
    (boot : Bool) (v : Byte) (a : Addr) :
    r.hits boot v (op ++ a) = (rng.contains a && r.cond.holds boot v) := by
  obtain ⟨hn, hmask, hpat, hlo, hhi⟩ := h
  have hdvd : 2 ^ n ∣ (op ++ rng.lo).toNat :=
    toNat_key op rng.lo ▸ (Dvd.dvd.mul_left (Nat.pow_dvd_pow 2 hn) _).add hlo
  have hpos : 0 < 2 ^ n := Nat.two_pow_pos n
  rw [Row.hits, hmask, hpat, BitVec.extractLsb'_append_eq_right]
  congr 1
  rw [Bool.eq_iff_iff]
  simp only [Range.contains, Bool.and_eq_true, beq_iff_eq, decide_eq_true_eq, and_allOnes_shiftLeft_eq_iff hdvd,
    toNat_key, BitVec.le_def]
  omega

/-! ### The overlay window and the registers as ranges -/

/-- The overlay window as a range (R55). -/
theorem contains_bootWindow (a : Addr) : Range.contains ⟨0x0000#16, 0x00FF#16⟩ a = decide (a.toNat < bootSize) := by
  rw [Range.contains, Bool.eq_iff_iff, Bool.and_eq_true]
  simp only [BitVec.le_def, BitVec.toNat_ofNat, decide_eq_true_eq, bootSize]
  omega

/-- A range of one address. -/
theorem contains_single (x a : Addr) : Range.contains ⟨x, x⟩ a = true ↔ a = x := by
  simp only [Range.contains, Bool.and_eq_true, decide_eq_true_eq, BitVec.le_def, ← BitVec.toNat_inj]
  omega

/-! ### The first row that matches -/

/-- The class of the first row that `k` hits, else `fallback`. -/
def firstClass {κ : Type} (fallback : κ) (boot : Bool) (v : Byte) (k : BitVec 20) (rows : List (Row κ)) : κ :=
  ((rows.find? (Row.hits boot v k)).map Row.cls).getD fallback

theorem firstClass_nil {κ : Type} (fallback : κ) (boot : Bool) (v : Byte) (k : BitVec 20) :
    firstClass fallback boot v k [] = fallback := rfl

theorem firstClass_cons {κ : Type} (fallback : κ) (boot : Bool) (v : Byte) (k : BitVec 20) (r : Row κ)
    (rows : List (Row κ)) :
    firstClass fallback boot v k (r :: rows) = if r.hits boot v k then r.cls else firstClass fallback boot v k rows := by
  unfold firstClass
  split
  next h => rw [List.find?_cons_of_pos h]; rfl
  next h => rw [List.find?_cons_of_neg h]

theorem decodeRead_eq_firstClass (boot : Bool) (k : BitVec 20) :
    decodeRead boot k = firstClass .store boot 0 k readRows := by
  unfold decodeRead firstClass
  cases readRows.find? (Row.hits boot 0 k) <;> rfl

theorem decodeWrite_eq_firstClass (boot : Bool) (k : BitVec 20) (v : Byte) :
    decodeWrite boot k v = firstClass .store boot v k writeRows := by
  unfold decodeWrite firstClass
  cases writeRows.find? (Row.hits boot v k) <;> rfl

end Sys2Proof

namespace Sys2Proof.Machine

open Sys2Proof

/-! ### Class rows run as their transactions -/

/-- A class row whose body is the write path where its class holds runs as `WRITE_BYTE`. -/
theorem transact_writeAs {k : WriteClass} {body : Addr → Byte → State → State} {a : Addr} {v : Byte}
    (h : ∀ u : State, writeClass u.cfg u.bootMode a v = k → writeByte a v u = body a v u) (s : State) :
    transact (writeAs k body a v) s = transact (writeByte a v) s :=
  congrArg (transact · s) (funext fun u => writeAs_eq (h u))

/-- A class row whose body is the trigger where its class holds and the engine is idle runs as a byte write to 0xFF46. -/
theorem transact_triggerAs {k : DmaClass} {body : Byte → State → State} {p : Byte}
    (h : ∀ u : State, u.dma.active = false → dmaClass u.cfg (dmaSource p) = k → dmaTrigger p u = body p u) (s : State) :
    transact (triggerAs k body p) s = transact (writeByte regDma p) s :=
  congrArg (transact · s) (funext fun u => (triggerAs_eq (h u)).trans (writeByte_dma p u).symm)

/-- Every row's body is what its transaction does where the row's class holds; elsewhere the row is routed as the
transaction is (log entry 9). -/
theorem exec_core (i : Instr) (s : State) : exec i s = exec i.core s := by
  cases i with
  | readByteBoot a => exact transact_readAs (fun _ => readByte_boot) s
  | readByteCartRom0 a => exact transact_readAs (fun _ => readByte_cartRom0) s
  | readByteCartRomx a => exact transact_readAs (fun _ => readByte_cartRomx) s
  | readByteCartEram a => exact transact_readAs (fun _ => readByte_cartEram) s
  | readByteVram a => exact transact_readAs (fun _ => readByte_vram) s
  | readByteOam a => exact transact_readAs (fun _ => readByte_oam) s
  | readByteStore a => exact transact_readAs (fun _ => readByte_store) s
  | writeByteDmaTrigger p => exact congrArg (transact · s) (funext fun u => (writeByte_dma p u).symm)
  | writeByteJoypad v => exact congrArg (transact · s) (funext fun u => (writeByte_joypad v u).symm)
  | writeByteBootDisable => exact transact_writeAs (fun _ => writeByte_bootDisable) s
  | writeByteVram a v => exact transact_writeAs (fun _ => writeByte_vram) s
  | writeByteOam a v => exact transact_writeAs (fun _ => writeByte_oam) s
  | writeByteTimer a v => exact transact_writeAs (fun _ => writeByte_timer) s
  | writeByteCartRom0 a v => exact transact_writeAs (fun _ => writeByte_cartRom0) s
  | writeByteCartRomx a v => exact transact_writeAs (fun _ => writeByte_cartRomx) s
  | writeByteCartEram a v => exact transact_writeAs (fun _ => writeByte_cartEram) s
  | writeByteStore a v => exact transact_writeAs (fun _ => writeByte_store) s
  | dmaSrcRom0 p => exact transact_triggerAs (fun _ => dmaTrigger_rom0) s
  | dmaSrcRomx p => exact transact_triggerAs (fun _ => dmaTrigger_romx) s
  | dmaSrcVram p => exact transact_triggerAs (fun _ => dmaTrigger_vram) s
  | dmaSrcEram p => exact transact_triggerAs (fun _ => dmaTrigger_eram) s
  | dmaSrcOam p => exact transact_triggerAs (fun _ => dmaTrigger_oam) s
  | dmaSrcStore p => exact transact_triggerAs (fun _ => dmaTrigger_store) s
  | _ => rfl

/-! ### The tables are the routing -/

/-- The RD rows are R56's ranges, in R56's order. -/
theorem decodeRead_eq_readClass (boot : Bool) (a : Addr) :
    decodeRead boot (0x0#4 ++ a) = readClass Params.dmg boot a := by
  simp only [decodeRead_eq_firstClass, readRows, firstClass_cons, firstClass_nil]
  rw [Row.hits_of_spans (n := 8) (rng := ⟨0x0000#16, 0x00FF#16⟩) (by decide),
    Row.hits_of_spans (n := 14) (rng := Params.dmg.rom0) (by decide),
    Row.hits_of_spans (n := 14) (rng := Params.dmg.romx) (by decide),
    Row.hits_of_spans (n := 13) (rng := Params.dmg.eram) (by decide),
    Row.hits_of_spans (n := 13) (rng := Params.dmg.vram) (by decide),
    Row.hits_of_spans (n := 8) (rng := Params.dmg.oam) (by decide)]
  simp only [readClass, contains_bootWindow, Cond.holds, Bool.and_true, Bool.and_comm _ boot, ite_self]

/-- The WR rows are R57's registers and ranges, in R57's order. -/
theorem decodeWrite_eq_writeClass (boot : Bool) (a : Addr) (v : Byte) :
    decodeWrite boot (0x1#4 ++ a) v = writeClass Params.dmg boot a v := by
  simp only [decodeWrite_eq_firstClass, writeRows, firstClass_cons, firstClass_nil]
  rw [Row.hits_of_spans (n := 0) (rng := ⟨regDma, regDma⟩) (by decide),
    Row.hits_of_spans (n := 0) (rng := ⟨regJoyp, regJoyp⟩) (by decide),
    Row.hits_of_spans (n := 0) (rng := ⟨regBoot, regBoot⟩) (by decide),
    Row.hits_of_spans (n := 13) (rng := Params.dmg.vram) (by decide),
    Row.hits_of_spans (n := 8) (rng := Params.dmg.oam) (by decide),
    Row.hits_of_spans (n := 2) (rng := Params.dmg.timer) (by decide),
    Row.hits_of_spans (n := 14) (rng := Params.dmg.rom0) (by decide),
    Row.hits_of_spans (n := 14) (rng := Params.dmg.romx) (by decide),
    Row.hits_of_spans (n := 13) (rng := Params.dmg.eram) (by decide)]
  simp only [writeClass, rangeClass, contains_single, Cond.holds, Bool.and_true, ite_self, Bool.and_eq_true, beq_iff_eq]
  simp only [and_left_comm, and_assoc]

theorem decodePage_eq_dmaClass (p : Byte) : decodePage p = dmaClass Params.dmg (dmaSource p) := by
  revert p
  decide

/-! ### Well-formed class rows are recovered -/

theorem configValid_dmg : configValid Params.dmg = true := by decide

/-- Outside boot mode, a collaborator's range that holds an address is the only one, so it gives the read its class. -/
theorem readClass_of_contains {c : Params} (hv : configValid c = true) (a : Addr) :
    (c.rom0.contains a = true → readClass c false a = .cartRom0) ∧
      (c.romx.contains a = true → readClass c false a = .cartRomx) ∧
      (c.eram.contains a = true → readClass c false a = .cartEram) ∧
      (c.vram.contains a = true → readClass c false a = .vram) ∧
      (c.oam.contains a = true → readClass c false a = .oam) := by
  have apart := ((configValid_iff c).mp hv).1
  simp only [mapRanges, List.pairwise_cons, List.forall_mem_cons] at apart
  obtain ⟨⟨h0x, h0e, h0v, h0o, -⟩, ⟨hxe, hxv, hxo, -⟩, ⟨hev, heo, -⟩, ⟨hvo, -⟩, -⟩ := apart
  refine ⟨fun ha => ?_, fun ha => ?_, fun ha => ?_, fun ha => ?_, fun ha => ?_⟩
  · simp [readClass, ha]
  · simp [readClass, ha, h0x.symm a ha]
  · simp [readClass, ha, h0e.symm a ha, hxe.symm a ha]
  · simp [readClass, ha, h0v.symm a ha, hxv.symm a ha, hev.symm a ha]
  · simp [readClass, ha, h0o.symm a ha, hxo.symm a ha, heo.symm a ha, hvo.symm a ha]

/-- The timer window is apart from the collaborators' ranges too. -/
theorem rangeClass_of_timer {c : Params} (hv : configValid c = true) {a : Addr} (ha : c.timer.contains a = true) :
    rangeClass c a = .timer := by
  have apart := ((configValid_iff c).mp hv).1
  simp only [mapRanges, List.pairwise_cons, List.forall_mem_cons] at apart
  obtain ⟨-, -, -, ⟨-, hvt, -⟩, ⟨hot, -⟩, -⟩ := apart
  simp [rangeClass, ha, hvt.symm a ha, hot.symm a ha]

/-- No collaborator's range holds an unrouted address. -/
theorem contains_of_unroutedRead {a : Addr} (h : unroutedRead a = true) :
    Params.dmg.rom0.contains a = false ∧ Params.dmg.romx.contains a = false ∧ Params.dmg.eram.contains a = false ∧
      Params.dmg.vram.contains a = false ∧ Params.dmg.oam.contains a = false := by
  simpa only [unroutedRead, Bool.and_eq_true, Bool.not_eq_true', and_assoc] using h

theorem readClass_of_unroutedRead {a : Addr} (h : unroutedRead a = true) : readClass Params.dmg false a = .store := by
  obtain ⟨rom0, romx, eram, vram, oam⟩ := contains_of_unroutedRead h
  simp [readClass, rom0, romx, eram, vram, oam]

theorem writeClass_of_unroutedRead {a : Addr} (h : unroutedRead a = true) (ht : Params.dmg.timer.contains a = false)
    (hdma : a ≠ regDma) (hjoyp : a ≠ regJoyp) (v : Byte) : writeClass Params.dmg false a v = .store := by
  obtain ⟨rom0, romx, eram, vram, oam⟩ := contains_of_unroutedRead h
  simp [writeClass, rangeClass, hdma, hjoyp, ht, rom0, romx, eram, vram, oam]

/-- The address of a well-formed read row is of the row's class in the row's mode. -/
theorem readClass_of_wellFormed {a : Addr} {k : ReadClass} (hw : (readInstr a k).wellFormed = true) :
    readClass Params.dmg (rowMode (readInstr a k)) a = k := by
  obtain ⟨rom0, romx, eram, vram, oam⟩ := readClass_of_contains configValid_dmg a
  cases k with
  | boot => exact if_pos hw
  | cartRom0 => exact rom0 hw
  | cartRomx => exact romx hw
  | cartEram => exact eram hw
  | vram => exact vram hw
  | oam => exact oam hw
  | store => exact readClass_of_unroutedRead hw

/-- The operands of a well-formed write row are of the row's class in the row's mode, where the row's transaction writes
them. -/
theorem writeClass_of_wellFormed {a : Addr} {v : Byte} {k : WriteClass} (hw : (writeInstr a v k).wellFormed = true)
    (hcore : (writeInstr a v k).core = .writeByte a v) :
    writeClass Params.dmg (rowMode (writeInstr a v k)) a v = k := by
  obtain ⟨rom0, romx, eram, vram, oam⟩ := rangeClass_of_contains configValid_dmg a
  have routed (r : Range) (hr : r ∈ mapRanges Params.dmg) (ha : r.contains a = true) :=
    writeClass_of_contains configValid_dmg hr ha false v
  cases k with
  | dmaTrigger => cases hcore; simp [writeClass]
  | joypad => cases hcore; simp [writeClass]
  | bootDisable => cases hcore; exact writeClass_latch
  | vram => exact (routed Params.dmg.vram (by simp [mapRanges]) hw).trans (vram hw)
  | oam => exact (routed Params.dmg.oam (by simp [mapRanges]) hw).trans (oam hw)
  | timer => exact (routed Params.dmg.timer (by simp [mapRanges]) hw).trans (rangeClass_of_timer configValid_dmg hw)
  | cartRom0 => exact (routed Params.dmg.rom0 (by simp [mapRanges]) hw).trans (rom0 hw)
  | cartRomx => exact (routed Params.dmg.romx (by simp [mapRanges]) hw).trans (romx hw)
  | cartEram => exact (routed Params.dmg.eram (by simp [mapRanges]) hw).trans (eram hw)
  | store =>
    simp only [writeInstr, Instr.wellFormed, Bool.and_eq_true, bne_iff_ne, Bool.not_eq_true'] at hw
    obtain ⟨⟨⟨hdma, hjoyp⟩, hread⟩, htimer⟩ := hw
    exact writeClass_of_unroutedRead hread htimer hdma hjoyp v

/-- The page of a well-formed source row is of the row's class. -/
theorem decodePage_of_wellFormed (k : DmaClass) : ∀ p : Byte, (pageInstr p k).wellFormed = true → decodePage p = k := by
  cases k <;> decide

theorem classify_readInstr {a : Addr} {k : ReadClass} (hw : (readInstr a k).wellFormed = true) :
    classify (rowMode (readInstr a k)) (.readByte a) = readInstr a k :=
  congrArg (readInstr a) ((decodeRead_eq_readClass _ a).trans (readClass_of_wellFormed hw))

theorem classify_writeInstr {a : Addr} {v : Byte} {k : WriteClass} (hw : (writeInstr a v k).wellFormed = true)
    (hcore : (writeInstr a v k).core = .writeByte a v) :
    classify (rowMode (writeInstr a v k)) (.writeByte a v) = writeInstr a v k :=
  congrArg (writeInstr a v) ((decodeWrite_eq_writeClass _ a v).trans (writeClass_of_wellFormed hw hcore))

/-- The first step finds the trigger, the second its source. -/
theorem classify_pageInstr {p : Byte} {k : DmaClass} (hw : (pageInstr p k).wellFormed = true) :
    classify false (classify false (.writeByte regDma p)) = pageInstr p k := by
  have trigger : classify false (.writeByte regDma p) = .writeByteDmaTrigger p :=
    classify_writeInstr (a := regDma) (k := .dmaTrigger) rfl rfl
  rw [trigger]
  exact congrArg (pageInstr p) (decodePage_of_wellFormed k p hw)

end Sys2Proof.Machine

namespace Sys2Proof.Proofs

open Sys2Proof Sys2Proof.Machine

/-- Settles O40: each row's body is what its transaction does where the row's class holds (`exec_core`). -/
theorem classRowRunsItsTransaction : Obligations.ClassRowRunsItsTransaction := by
  unfold Obligations.ClassRowRunsItsTransaction
  exact exec_core

/-- Settles O41: each mask and match row is a range of the default map (`Row.hits_of_spans`), tried in the order of the
routing. -/
theorem tablesAgreeWithRouting : Obligations.TablesAgreeWithRouting := by
  unfold Obligations.TablesAgreeWithRouting
  exact ⟨decodeRead_eq_readClass, decodeWrite_eq_writeClass, decodePage_eq_dmaClass⟩

/-- Settles O43: the tables are the routing, and the routing gives a well-formed row's operands the row's class, row by
row; a DMA source takes the second step. -/
theorem classRowsAreRecovered : Obligations.ClassRowsAreRecovered := by
  unfold Obligations.ClassRowsAreRecovered
  intro i hw hcore
  cases i with
  | readByteBoot a => exact .inl (classify_readInstr (k := .boot) hw)
  | readByteCartRom0 a => exact .inl (classify_readInstr (k := .cartRom0) hw)
  | readByteCartRomx a => exact .inl (classify_readInstr (k := .cartRomx) hw)
  | readByteCartEram a => exact .inl (classify_readInstr (k := .cartEram) hw)
  | readByteVram a => exact .inl (classify_readInstr (k := .vram) hw)
  | readByteOam a => exact .inl (classify_readInstr (k := .oam) hw)
  | readByteStore a => exact .inl (classify_readInstr (k := .store) hw)
  | writeByteDmaTrigger p => exact .inl (classify_writeInstr (k := .dmaTrigger) hw rfl)
  | writeByteJoypad v => exact .inl (classify_writeInstr (k := .joypad) hw rfl)
  | writeByteBootDisable => exact .inl (classify_writeInstr (k := .bootDisable) hw rfl)
  | writeByteVram a v => exact .inl (classify_writeInstr (k := .vram) hw rfl)
  | writeByteOam a v => exact .inl (classify_writeInstr (k := .oam) hw rfl)
  | writeByteTimer a v => exact .inl (classify_writeInstr (k := .timer) hw rfl)
  | writeByteCartRom0 a v => exact .inl (classify_writeInstr (k := .cartRom0) hw rfl)
  | writeByteCartRomx a v => exact .inl (classify_writeInstr (k := .cartRomx) hw rfl)
  | writeByteCartEram a v => exact .inl (classify_writeInstr (k := .cartEram) hw rfl)
  | writeByteStore a v => exact .inl (classify_writeInstr (k := .store) hw rfl)
  | dmaSrcRom0 p => exact .inr (classify_pageInstr (k := .rom0) hw)
  | dmaSrcRomx p => exact .inr (classify_pageInstr (k := .romx) hw)
  | dmaSrcVram p => exact .inr (classify_pageInstr (k := .vram) hw)
  | dmaSrcEram p => exact .inr (classify_pageInstr (k := .eram) hw)
  | dmaSrcOam p => exact .inr (classify_pageInstr (k := .oam) hw)
  | dmaSrcStore p => exact .inr (classify_pageInstr (k := .store) hw)
  | _ => exact absurd rfl hcore

end Sys2Proof.Proofs
end

section
/-! PROOF. The wait loop of 30_encoding.md R90: a run of advances by the same count (43_dma.md R182, R183). -/

namespace Sys2Proof.Machine

open Sys2Proof

/-- An engine is Active after an advance exactly if it was and the advance stays below the threshold (R183). -/
theorem dmaElapse_active_iff (cycles n : Nat) (d : Dma) :
    (dmaElapse cycles n d).active = true ↔ d.active = true ∧ d.elapsed + n < cycles := by
  cases h : d.active <;> simp [dmaElapse, h]

/-- An Active engine counts the cycles of an advance (R182). -/
theorem dmaElapse_elapsed {cycles n : Nat} {d : Dma} (h : d.active = true) :
    (dmaElapse cycles n d).elapsed = d.elapsed + n := by
  simp [dmaElapse, h]

/-- A run of advances is one advance, then the others. -/
theorem advanceTimes_succ {s : State} (hs : Ready s) (k m : Nat) :
    advanceTimes k (m + 1) s
      = advanceTimes k m (respond .ok { s with dma := dmaElapse s.cfg.dmaCycles k s.dma }) := by
  have run : exec (.dmaAdvance k) s = .next (respond .ok { s with dma := dmaElapse s.cfg.dmaCycles k s.dma }) :=
    by rw [exec, execDmaAdvance, transact_ready hs]
  rw [advanceTimes, run]

/-- A run of advances changes the engine and the response only, and the engine is Active after it exactly if it was and
the run stays below the threshold. -/
theorem advanceTimes_ready {s : State} (hs : Ready s) (hcount : s.dma.active = true → s.dma.elapsed < s.cfg.dmaCycles)
    (k m : Nat) :
    ∃ t, advanceTimes k m s = .next t ∧
      (t.dma.active = true ↔ s.dma.active = true ∧ s.dma.elapsed + m * k < s.cfg.dmaCycles) ∧
      t = { s with dma := t.dma, response := t.response } := by
  induction m generalizing s with
  | zero => exact ⟨s, rfl, by simpa using hcount, rfl⟩
  | succ m ih =>
    obtain ⟨t, run, hactive, frame⟩ :=
      ih (s := respond .ok { s with dma := dmaElapse s.cfg.dmaCycles k s.dma }) hs dmaElapse_counting
    refine ⟨t, (advanceTimes_succ hs k m).trans run, ?_, frame⟩
    simp only [respond_dma, respond_cfg, dmaElapse_active_iff] at hactive
    rw [hactive, Nat.succ_mul]
    constructor
    · rintro ⟨⟨ha, -⟩, hlt⟩
      rw [dmaElapse_elapsed ha] at hlt
      exact ⟨ha, by omega⟩
    · rintro ⟨ha, hlt⟩
      rw [dmaElapse_elapsed ha]
      exact ⟨⟨ha, by omega⟩, by omega⟩

end Sys2Proof.Machine

namespace Sys2Proof.Proofs

open Sys2Proof Sys2Proof.Machine

/-- Settles O34: a run of advances counts its cycles (`advanceTimes_ready`); that `k` is at least 1 is not needed, an
advance of no cycles leaves the count where it is. -/
theorem waitLoopEndsInTime : Obligations.WaitLoopEndsInTime := by
  unfold Obligations.WaitLoopEndsInTime
  intro s k m hs hactive hcount _
  obtain ⟨t, run, hiff, frame⟩ := advanceTimes_ready hs (fun _ => hcount) k m
  exact ⟨t, run, by simpa [hactive] using hiff, frame⟩

end Sys2Proof.Proofs
end

section
/-! PROOF. The constructions of 40_construction.md (R100 to R107): the state a construction leaves, and the image checks
in the order of R208, one lemma per outcome of `CONSTRUCT_CART`. -/

namespace Sys2Proof.Machine

open Sys2Proof

/-! ### The state a construction leaves -/

/-- Storage reads 0x00 everywhere, and the fields the construction does not name are as they were (R100, R105). -/
theorem constructed_spec (boot : Bool) (c : Option Cart) (s : State) :
    (∀ a, Mem.read (constructed boot c s).addressSpace a = 0) ∧
      constructed boot c s
        = { s with addressSpace := (constructed boot c s).addressSpace, bootMode := boot, dma := ⟨false, 0⟩,
                   cart := c, fault := none, constructed := true, response := some .ok } :=
  ⟨fun a => by simp, rfl⟩

theorem exec_constructBlank {s : State} (h : Constructible s) : exec .constructBlank s = .next (buildBlank s) :=
  construct_ready h

theorem exec_constructCart {s : State} (h : Constructible s) (image : List Byte) :
    exec (.constructCart image) s = .next (buildCart image s) :=
  construct_ready h

/-! ### The checks on an image (R101 to R107) -/

section

variable {image : List Byte}

theorem romSize_eq (ind : Byte) : romSize ind = 0x8000 * 2 ^ ind.toNat := Nat.shiftLeft_eq ..

theorem buildCart_short (hlen : image.length < 0x149) (s : State) :
    buildCart image s = raise (.corruptCartridge image.length) s :=
  if_pos hlen

theorem buildCart_unsupported (hlen : 0x149 ≤ image.length) (hind : 8 < (image.getD 0x148 0).toNat) (s : State) :
    buildCart image s = raise (.unsupportedRomSize (image.getD 0x148 0)) s :=
  (if_neg hlen.not_gt).trans (if_pos hind)

theorem buildCart_truncated (hlen : 0x149 ≤ image.length) (hind : (image.getD 0x148 0).toNat ≤ 8)
    (hsize : image.length < romSize (image.getD 0x148 0)) (s : State) :
    buildCart image s = raise (.corruptCartridge image.length) s :=
  (if_neg hlen.not_gt).trans ((if_neg hind.not_gt).trans (if_pos hsize))

/-- An image that passes the checks leaves the verdict to the collaborator. -/
theorem buildCart_checked (hlen : 0x149 ≤ image.length) (hind : (image.getD 0x148 0).toNat ≤ 8)
    (hsize : romSize (image.getD 0x148 0) ≤ image.length) (s : State) :
    (∀ c, Config.cartMake (image.take (romSize (image.getD 0x148 0))) = .ok c →
        buildCart image s = constructed true (some c) s) ∧
      (∀ e, Config.cartMake (image.take (romSize (image.getD 0x148 0))) = .error e →
        buildCart image s = raise (.cartRejected e) s) := by
  constructor <;> intro r hmake <;>
    simp only [buildCart, if_neg hlen.not_gt, if_neg hind.not_gt, if_neg hsize.not_gt, hmake]

end

end Sys2Proof.Machine

namespace Sys2Proof.Proofs

open Sys2Proof Sys2Proof.Machine

/-- Settles O7: the word is evaluated, and the block that can be constructed runs R100's body (`constructed_spec`). -/
theorem constructBlankState : Obligations.ConstructBlankState := by
  unfold Obligations.ConstructBlankState
  refine ⟨by decide, fun s hs => ?_⟩
  exact ⟨buildBlank s, exec_constructBlank hs, constructed_spec s.cfg.blankBootMode none s⟩

/-- Settles O8: an image that passes the checks leaves the verdict to `CartModel.make` (`buildCart_checked`). -/
theorem constructCartState : Obligations.ConstructCartState := by
  unfold Obligations.ConstructCartState
  intro s image hs hlen hind hsize
  rw [← romSize_eq] at hsize ⊢
  obtain ⟨made, rejected⟩ := buildCart_checked hlen hind hsize s
  have run := exec_constructCart hs image
  split
  · next c hmake =>
    rw [made c hmake] at run
    exact ⟨_, run, constructed_spec true (some c) s⟩
  · next e hmake =>
    rw [rejected e hmake] at run
    exact run

/-- Settles O9: one lemma per failing check; each raises its fault and changes nothing else. -/
theorem constructCartChecks : Obligations.ConstructCartChecks := by
  unfold Obligations.ConstructCartChecks
  intro s image hs
  rw [exec_constructCart hs image, ← romSize_eq]
  refine ⟨fun hlen => ?_, fun hlen hind => ?_, fun hlen hind hsize => ?_⟩
  · exact congrArg _ (buildCart_short hlen s)
  · exact congrArg _ (buildCart_unsupported hlen hind s)
  · exact congrArg _ (buildCart_truncated hlen hind hsize s)

end Sys2Proof.Proofs
end

section
/-! PROOF. The read path of 41_read.md (R120 to R125): `READ_BYTE` and the class rows run as one read path, which
answers as the owner of the address says. -/

namespace Sys2Proof.Machine

open Sys2Proof

/-! ### Reads run the read path -/

/-- A read row runs as the `READ_BYTE` it names. -/
theorem exec_readInstr (a : Addr) (k : ReadClass) (s : State) : exec (readInstr a k) s = exec (.readByte a) s := by
  cases k <;> exact exec_core _ s

/-- What the read path does, `READ_BYTE` and every row of it do. -/
theorem reads_run {s t : State} {a : Addr} {k : ReadClass} (hs : Ready s) (h : readByte a s = t) :
    ∀ i ∈ [Instr.readByte a, readInstr a k], exec i s = .next t := by
  have run : exec (.readByte a) s = .next t := h ▸ transact_ready hs
  simp [exec_readInstr, run]

/-- A read routed to the cartridge asks it at the absolute address, or finds none (R122). -/
theorem reads_run_readCart {s : State} {a : Addr} {k : ReadClass} (hs : Ready s) (h : readByte a s = readCart a s) :
    ∀ i ∈ [Instr.readByte a, readInstr a k],
      (∀ c, s.cart = some c → exec i s = .next (respond (.rdata (Config.cartRead c a)) s)) ∧
        (s.cart = none → exec i s = .next (raise (.noCartridge (.addr a)) s)) := by
  intro i hi
  rw [reads_run hs h i hi]
  exact ⟨fun c hcart => by simp only [readCart, hcart], fun hcart => by simp only [readCart, hcart]⟩

/-! ### The owner of a read (R56) -/

/-- The overlay comes first and is the only owner that `boot_mode` decides (R121). -/
theorem readClass_eq_boot_iff (c : Params) (boot : Bool) (a : Addr) :
    readClass c boot a = .boot ↔ boot = true ∧ a.toNat < bootSize := by
  rw [← decide_eq_true_iff (p := a.toNat < bootSize), ← Bool.and_eq_true]
  unfold readClass
  split_ifs with window
  · exact iff_of_true rfl window
  all_goals exact iff_of_false nofun window

/-- A read of a PPU class lies in the PPU's range of that name. -/
theorem readClass_contains (c : Params) (boot : Bool) (a : Addr) :
    (readClass c boot a = .vram → c.vram.contains a = true) ∧
      (readClass c boot a = .oam → c.oam.contains a = true) := by
  unfold readClass
  split_ifs <;> simp_all

/-- The ranges whose reads go to a collaborator (R56). -/
def readRanges (c : Params) : List Range := [c.rom0, c.romx, c.eram, c.vram, c.oam]

/-- The timer window is the one range of the map that reads do not route. -/
theorem mapRanges_eq (c : Params) : mapRanges c = readRanges c ++ [c.timer] := rfl

/-- Outside the overlay window, an address in none of the read ranges is storage. -/
theorem readClass_eq_store {c : Params} {boot : Bool} {a : Addr} (hboot : boot = true → bootSize ≤ a.toNat)
    (hout : ∀ r ∈ readRanges c, r.contains a = false) : readClass c boot a = .store := by
  simp only [readRanges, List.forall_mem_cons] at hout
  obtain ⟨rom0, romx, eram, vram, oam, -⟩ := hout
  have window : ¬(boot && decide (a.toNat < bootSize)) = true := by simpa using hboot
  simp [readClass, window, rom0, romx, eram, vram, oam]

/-- The timer window lies apart from the read ranges (R52). -/
theorem readRanges_apart_timer {c : Params} (hv : configValid c = true) {a : Addr} (ha : c.timer.contains a = true) :
    ∀ r ∈ readRanges c, r.contains a = false := by
  intro r hr
  have apart := ((configValid_iff c).mp hv).1
  rw [mapRanges_eq, List.pairwise_append] at apart
  obtain ⟨-, -, cross⟩ := apart
  exact (cross r hr c.timer (List.mem_singleton_self _)).symm a ha

/-- No read range holds a register of the block (R52). -/
theorem readRanges_apart_registers {c : Params} (hv : configValid c = true) {a : Addr}
    (ha : a = regJoyp ∨ a = regDma ∨ a = regBoot) : ∀ r ∈ readRanges c, r.contains a = false := by
  intro r hr
  obtain ⟨-, registers, -⟩ := (configValid_iff c).mp hv
  obtain ⟨joyp, dma, boot⟩ := registers r (mapRanges_eq c ▸ List.mem_append_left _ hr)
  rcases ha with rfl | rfl | rfl
  · exact joyp
  · exact dma
  · exact boot

end Sys2Proof.Machine

namespace Sys2Proof.Proofs

open Sys2Proof Sys2Proof.Machine

/-- Settles O11: the table is the routing (`decodeRead_eq_readClass`), and the overlay is its first owner
(`readClass_eq_boot_iff`), before the cartridge is looked at. -/
theorem readBootOverlay : Obligations.ReadBootOverlay := by
  unfold Obligations.ReadBootOverlay
  refine ⟨fun boot a => ?_, fun s a hs hboot ha => ?_⟩
  · rw [decodeRead_eq_readClass]
    exact readClass_eq_boot_iff _ boot a
  · have hk : readClass s.cfg s.bootMode a = .boot := (readClass_eq_boot_iff _ _ a).mpr ⟨hboot, ha⟩
    exact reads_run (k := .boot) hs (readByte_boot hk)

/-- Settles O12: the three rows share one body (`reads_run_readCart`). -/
theorem readCartridge : Obligations.ReadCartridge := by
  unfold Obligations.ReadCartridge
  refine ⟨fun boot a k _ => by rw [decodeRead_eq_readClass], fun s a hs ki hki hk => ?_⟩
  simp only [List.mem_cons, List.not_mem_nil, or_false] at hki
  rcases hki with rfl | rfl | rfl
  · exact reads_run_readCart (k := .cartRom0) hs (readByte_cartRom0 hk)
  · exact reads_run_readCart (k := .cartRomx) hs (readByte_cartRomx hk)
  · exact reads_run_readCart (k := .cartEram) hs (readByte_cartEram hk)

/-- Settles O13: the class names the range (`readClass_contains`), which R52 fits into the buffer. -/
theorem readPpuBuffers : Obligations.ReadPpuBuffers := by
  unfold Obligations.ReadPpuBuffers
  refine ⟨fun boot a k _ => by rw [decodeRead_eq_readClass], fun s a hs => ⟨fun hk => ?_, fun hk => ?_, fun hv => ?_⟩⟩
  · exact reads_run (k := .vram) hs (readByte_vram hk)
  · exact reads_run (k := .oam) hs (readByte_oam hk)
  · obtain ⟨in_vram, in_oam⟩ := readClass_contains s.cfg s.bootMode a
    obtain ⟨vram_fits, oam_fits, -⟩ := configValid_bounds hv
    exact ⟨fun hk => offsetIn_lt (in_vram hk) vram_fits, fun hk => offsetIn_lt (in_oam hk) oam_fits⟩

/-- Settles O14: R52 keeps the timer window and the three registers out of the read ranges, and what lies in none of
them is storage (`readClass_eq_store`). -/
theorem readStorage : Obligations.ReadStorage := by
  unfold Obligations.ReadStorage
  refine ⟨fun boot a => by rw [decodeRead_eq_readClass], fun s a hs hk => ?_, fun c boot a hv hboot ha => ?_⟩
  · exact reads_run (k := .store) hs (readByte_store hk)
  · refine readClass_eq_store hboot ?_
    rcases ha with ha | ha
    · exact readRanges_apart_timer hv ha
    · exact readRanges_apart_registers hv ha

end Sys2Proof.Proofs
end

section
/-! PROOF. The write path of 42_write.md (R140 to R150): `WRITE_BYTE` and the class rows run as one write path, which
writes to the owner of the address; a word write is two byte writes, and a block write goes past the owners. -/

namespace Sys2Proof.Machine

open Sys2Proof

/-! ### Writes run the write path -/

/-- What the write path does, `WRITE_BYTE` and a row of it with the same operands do. -/
theorem writes_run {s t : State} {a : Addr} {v : Byte} {k : WriteClass} (hs : Ready s)
    (hcore : (writeInstr a v k).core = .writeByte a v) (h : writeByte a v s = t) :
    ∀ i ∈ [Instr.writeByte a v, writeInstr a v k], exec i s = .next t := by
  have run : exec (.writeByte a v) s = .next t := h ▸ transact_ready hs
  have row : exec (writeInstr a v k) s = .next t := by rw [exec_core, hcore, run]
  simp [run, row]

/-- A write routed to the cartridge is handed to it at the absolute address, or finds none (R147). -/
theorem writes_run_writeCart {s : State} {a : Addr} {v : Byte} {k : WriteClass} (hs : Ready s)
    (hcore : (writeInstr a v k).core = .writeByte a v) (h : writeByte a v s = writeCart a v s) :
    ∀ i ∈ [Instr.writeByte a v, writeInstr a v k],
      (∀ c, s.cart = some c → exec i s = .next (respond .ok { s with cart := some (Config.cartWrite c a v) })) ∧
        (s.cart = none → exec i s = .next (raise (.noCartridge (.addr a)) s)) := by
  intro i hi
  rw [writes_run hs hcore h i hi]
  exact ⟨fun c hcart => by simp only [writeCart, hcart], fun hcart => by simp only [writeCart, hcart]⟩

/-! ### The owner of a write (R57) -/

theorem writeClass_eq_joypad_iff (c : Params) (boot : Bool) (a : Addr) (v : Byte) :
    writeClass c boot a v = .joypad ↔ a = regJoyp := by
  refine ⟨fun h => ?_, fun ha => by simp [writeClass, ha]⟩
  rcases writeClass_cases c boot a v with ⟨-, e⟩ | ⟨ha, -⟩ | ⟨-, e⟩ | e
  · exact absurd (e.symm.trans h) nofun
  · exact ha
  · exact absurd (e.symm.trans h) nofun
  · exact absurd (e.symm.trans h) (rangeClass_ne c a).2.1

/-- The latch takes the mode, the register and the value 0x01 together (R143). -/
theorem writeClass_eq_bootDisable_iff (c : Params) (boot : Bool) (a : Addr) (v : Byte) :
    writeClass c boot a v = .bootDisable ↔ boot = true ∧ a = regBoot ∧ v = bootDisableValue := by
  constructor
  · intro h
    rcases writeClass_cases c boot a v with ⟨-, e⟩ | ⟨-, e⟩ | ⟨latched, -⟩ | e
    · exact absurd (e.symm.trans h) nofun
    · exact absurd (e.symm.trans h) nofun
    · exact latched
    · exact absurd (e.symm.trans h) (rangeClass_ne c a).2.2
  · rintro ⟨rfl, rfl, rfl⟩
    exact writeClass_latch

/-- An address in no range of the map is storage once it reaches step 4 (R52, R140). -/
theorem rangeClass_eq_store {c : Params} {a : Addr} (hout : ∀ r ∈ mapRanges c, r.contains a = false) :
    rangeClass c a = .store := by
  simp only [mapRanges, List.forall_mem_cons] at hout
  obtain ⟨rom0, romx, eram, vram, oam, timer, -⟩ := hout
  simp [rangeClass, rom0, romx, eram, vram, oam, timer]

/-- A valid map has no range at the joypad and boot registers, so step 5 stores there (R52). -/
theorem rangeClass_registers {c : Params} (hv : configValid c = true) :
    rangeClass c regJoyp = .store ∧ rangeClass c regBoot = .store := by
  obtain ⟨-, registers, -⟩ := (configValid_iff c).mp hv
  exact ⟨rangeClass_eq_store fun r hr => (registers r hr).1, rangeClass_eq_store fun r hr => (registers r hr).2.2⟩

/-! ### What a write changes, and what it leaves -/

/-- One byte of an array reads as written, every other one as before. -/
theorem Mem.write_spec (m : Mem) (a : Nat) (v : Byte) :
    Mem.read (Mem.write m a v) a = v ∧ ∀ k, k ≠ a → Mem.read (Mem.write m a v) k = Mem.read m k :=
  ⟨Mem.read_write_self m a v, fun _ hk => Mem.read_write_other m v hk.symm⟩

/-- Storing sets one byte of `AS` (R148). -/
theorem writeStore_spec (a : Addr) (v : Byte) (s : State) :
    Mem.read (writeStore a v s).addressSpace a.toNat = v ∧
      (∀ k, k ≠ a.toNat → Mem.read (writeStore a v s).addressSpace k = Mem.read s.addressSpace k) ∧
      writeStore a v s = { s with addressSpace := (writeStore a v s).addressSpace, response := some .ok } :=
  have ⟨written, others⟩ := Mem.write_spec s.addressSpace a.toNat v
  ⟨written, others, rfl⟩

/-- A joypad write stores the value with its low nibble forced (R142). -/
theorem writeByte_joypad_store {s : State} (hv : configValid s.cfg = true) (v : Byte) :
    writeByte regJoyp v s = writeStore regJoyp (joypadValue v) s := by
  rw [writeByte_joypad, writeJoypad, writeRouted, (rangeClass_registers hv).1]

/-- A write to 0xFF50 that does not latch is stored (R143). -/
theorem writeByte_regBoot_store {s : State} (hv : configValid s.cfg = true) {v : Byte}
    (h : s.bootMode = false ∨ v ≠ bootDisableValue) : writeByte regBoot v s = writeStore regBoot v s := by
  rcases writeByte_cases regBoot v s with ⟨hdma, -⟩ | ⟨hjoyp, -⟩ | ⟨-, hval, hb, -⟩ | ⟨-, -, e⟩
  · exact absurd hdma regBoot_ne_regDma
  · exact absurd hjoyp regBoot_ne_regJoyp
  · exact absurd hval (h.resolve_left (by simp [hb]))
  · rw [e, writeRouted, (rangeClass_registers hv).2]

/-- The bytes of a run read as written, every byte outside it as before. -/
theorem Mem.writeList_spec (m : Mem) (a : Nat) (bytes : List Byte) :
    (∀ j, j < bytes.length → Mem.read (Mem.writeList m a bytes) (a + j) = bytes.getD j 0) ∧
      ∀ k, k < a ∨ a + bytes.length ≤ k → Mem.read (Mem.writeList m a bytes) k = Mem.read m k := by
  refine ⟨fun j hj => ?_, fun k hk => ?_⟩ <;> rw [Mem.read_writeList]
  · rw [if_pos (by omega), Nat.add_sub_cancel_left]
  · rw [if_neg (by omega)]

/-- The second address of a word write wraps at the end of the space (R149). -/
theorem nextAddr_eq_ofNat (a : Addr) : nextAddr a = BitVec.ofNat 16 (a.toNat + 1) := by
  simp [nextAddr, BitVec.ofNat_add]

end Sys2Proof.Machine

namespace Sys2Proof.Proofs

open Sys2Proof Sys2Proof.Machine

/-- Settles O16: 0xFF00 lies in no range of a valid map, so the masked value is stored (`writeByte_joypad_store`) and a
read of it is a read of storage. -/
theorem writeJoypad : Obligations.WriteJoypad := by
  unfold Obligations.WriteJoypad
  refine ⟨fun boot a v => ?_, fun s v hs hv i hi => ?_⟩
  · rw [decodeWrite_eq_writeClass]
    exact writeClass_eq_joypad_iff _ boot a v
  · have run := writes_run (k := .joypad) hs rfl (writeByte_joypad_store hv v) i hi
    obtain ⟨written, others, frame⟩ := writeStore_spec regJoyp (joypadValue v) s
    have stored : readClass s.cfg s.bootMode regJoyp = .store :=
      readClass_eq_store (fun _ => by decide) (readRanges_apart_registers hv (.inl rfl))
    have readBack := exec_readByte_store (s := writeStore regJoyp (joypadValue v) s) hs stored
    rw [written] at readBack
    exact ⟨_, run, written, others, frame, readBack⟩

/-- Settles O17: the latch is the one class with a condition on mode and value (`writeClass_eq_bootDisable_iff`); any
other write to 0xFF50 is stored (`writeByte_regBoot_store`). -/
theorem bootDisableLatch : Obligations.BootDisableLatch := by
  unfold Obligations.BootDisableLatch
  refine ⟨fun boot a v => ?_, fun s hs hb i hi => ?_, fun s v hs hv h => ?_, fun s _ _ => exec_core _ s⟩
  · rw [decodeWrite_eq_writeClass]
    exact writeClass_eq_bootDisable_iff _ boot a v
  · have latched : writeClass s.cfg s.bootMode regBoot bootDisableValue = .bootDisable := hb ▸ writeClass_latch
    have run := writes_run (k := .bootDisable) hs rfl (writeByte_bootDisable latched) i hi
    exact ⟨_, run, fun k => Mem.read_nil k, rfl⟩
  · have run : exec (.writeByte regBoot v) s = .next (writeStore regBoot v s) :=
      (transact_ready hs).trans (congrArg _ (writeByte_regBoot_store hv h))
    exact ⟨_, run, writeStore_spec regBoot v s⟩

/-- Settles O18: one byte of the buffer is written (`Mem.write_spec`). -/
theorem writePpuBuffers : Obligations.WritePpuBuffers := by
  unfold Obligations.WritePpuBuffers
  refine ⟨fun boot a v k _ => by rw [decodeWrite_eq_writeClass], fun s a v hs => ?_⟩
  refine ⟨fun hk i hi => ?_, fun hk i hi => ?_⟩
  · have run := writes_run (k := .vram) hs rfl (writeByte_vram hk) i hi
    obtain ⟨written, others⟩ := Mem.write_spec s.vram (offsetIn s.cfg.vram a) v
    exact ⟨_, run, written, others, rfl⟩
  · have run := writes_run (k := .oam) hs rfl (writeByte_oam hk) i hi
    obtain ⟨written, others⟩ := Mem.write_spec s.oam (offsetIn s.cfg.oam a) v
    exact ⟨_, run, written, others, rfl⟩

/-- Settles O19: the timer alone changes, so a read of the address is routed as before and finds `AS` as it was. -/
theorem writeTimerWindow : Obligations.WriteTimerWindow := by
  unfold Obligations.WriteTimerWindow
  refine ⟨fun boot a v => by rw [decodeWrite_eq_writeClass], fun s a v hs hk i hi => ?_⟩
  have run := writes_run (k := .timer) hs rfl (writeByte_timer hk) i hi
  refine ⟨run, fun hread t ht => ?_⟩
  rw [run] at ht
  cases ht
  exact exec_readByte_store (s := writeTimer a v s) hs hread

/-- Settles O20: the three rows share one body (`writes_run_writeCart`). -/
theorem writeCartridge : Obligations.WriteCartridge := by
  unfold Obligations.WriteCartridge
  refine ⟨fun boot a v k _ => by rw [decodeWrite_eq_writeClass], fun s a v hs ki hki hk => ?_⟩
  simp only [List.mem_cons, List.not_mem_nil, or_false] at hki
  rcases hki with rfl | rfl | rfl
  · exact writes_run_writeCart (k := .cartRom0) hs rfl (writeByte_cartRom0 hk)
  · exact writes_run_writeCart (k := .cartRomx) hs rfl (writeByte_cartRomx hk)
  · exact writes_run_writeCart (k := .cartEram) hs rfl (writeByte_cartEram hk)

/-- Settles O21: the write is one byte of `AS` (`writeStore_spec`). -/
theorem writeStorage : Obligations.WriteStorage := by
  unfold Obligations.WriteStorage
  refine ⟨fun boot a v => by rw [decodeWrite_eq_writeClass], fun s a v hs hk i hi => ?_⟩
  exact ⟨_, writes_run (k := .store) hs rfl (writeByte_store hk) i hi, writeStore_spec a v s⟩

/-- Settles O22: by whether the first byte write faults (`writeWord_cases`); if it does not, the block can run the
second, for a byte write keeps it constructed. -/
theorem writeWordIsTwoByteWrites : Obligations.WriteWordIsTwoByteWrites := by
  unfold Obligations.WriteWordIsTwoByteWrites
  refine ⟨fun a v => decode_encode_of_core (i := .writeWord a v) rfl rfl, fun s a v hs => ?_⟩
  have run : exec (.writeWord a v) s = .next (writeWord a v s) := transact_ready hs
  obtain ⟨-, -, keepsConstructed, -⟩ := writeByte_keeps a (lowByte v) s
  refine ⟨writeByte a (lowByte v) s, transact_ready hs, fun hf => ?_, fun hf => ?_⟩
  · have ready : Ready (writeByte a (lowByte v) s) := ⟨hf, keepsConstructed.trans hs.2⟩
    rcases writeWord_cases a v s with ⟨faulted, -⟩ | ⟨-, e⟩
    · exact absurd hf faulted
    · rw [run, e, ← nextAddr_eq_ofNat]
      exact (transact_ready ready).symm
  · rcases writeWord_cases a v s with ⟨-, e⟩ | ⟨unfaulted, -⟩
    · rw [run, e]
    · exact absurd unfaulted hf

/-- Settles O24: by the bound on the run (`writeBlock_cases`); a run that fits is written byte by byte
(`Mem.writeList_spec`). -/
theorem writeBlockRaw : Obligations.WriteBlockRaw := by
  unfold Obligations.WriteBlockRaw
  refine ⟨fun a bytes => decode_encode_of_core (i := .writeBlock a bytes) rfl rfl, fun s a bytes hs => ?_⟩
  have run : exec (.writeBlock a bytes) s = .next (writeBlock a bytes s) := transact_ready hs
  rcases writeBlock_cases a bytes s with ⟨overrun, e⟩ | ⟨fits, e⟩ <;> rw [run, e]
  · exact ⟨fun _ => rfl, fun fits => absurd overrun fits.not_gt⟩
  · obtain ⟨written, others⟩ := Mem.writeList_spec s.addressSpace a.toNat bytes
    exact ⟨fun overrun => absurd fits overrun.not_ge, fun _ => ⟨_, rfl, written, others, rfl⟩⟩

end Sys2Proof.Proofs
end

section
/-! PROOF. The busy window of 43_dma.md (R185): the read path, the write path off 0xFF46 and the block write neither look
at the engine nor change it. -/

namespace Sys2Proof.Machine

open Sys2Proof

/-- `k` neither looks at the engine nor changes it. -/
def IgnoresEngine (k : State → State) : Prop := ∀ (s : State) (d : Dma), k { s with dma := d } = { k s with dma := d }

/-- A transaction that ignores the engine answers the same next state whatever the engine's state (R185). -/
theorem IgnoresEngine.transact {k : State → State} (hk : IgnoresEngine k) {s t : State} (h : transact k s = .next t)
    (d : Dma) : Machine.transact k { s with dma := d } = .next { t with dma := d } := by
  rcases transact_cases h with ⟨hs, rfl⟩ | ⟨hf, hc, rfl⟩
  · exact (transact_ready (s := { s with dma := d }) hs).trans (congrArg Host.Outcome.next (hk s d))
  · exact transact_unbuilt hf hc

theorem readCart_ignoresEngine (a : Addr) : IgnoresEngine (readCart a) := by
  intro s d
  obtain ⟨_, _, _, _, cart, _⟩ := s
  cases cart <;> rfl

/-- The owner of a read is found without the engine, and each owner answers without it. -/
theorem readByte_ignoresEngine (a : Addr) : IgnoresEngine (readByte a) := by
  intro s d
  cases hk : readClass s.cfg s.bootMode a <;> simp only [readByte, hk]
  case boot | vram | oam | store => rfl
  case cartRom0 | cartRomx | cartEram => exact readCart_ignoresEngine a s d

theorem writeCart_ignoresEngine (a : Addr) (v : Byte) : IgnoresEngine (writeCart a v) := by
  intro s d
  obtain ⟨_, _, _, _, cart, _⟩ := s
  cases cart <;> rfl

/-- Steps 4 and 5 of R140 find the owner without the engine, and each owner takes the byte without it. -/
theorem writeRouted_ignoresEngine (a : Addr) (v : Byte) : IgnoresEngine (writeRouted a v) := by
  intro s d
  cases hk : rangeClass s.cfg a <;> simp only [writeRouted, hk]
  case cartRom0 | cartRomx | cartEram => exact writeCart_ignoresEngine a v s d
  all_goals rfl

theorem writeClass_ne_dmaTrigger (c : Params) (boot : Bool) {a : Addr} (v : Byte) (ha : a ≠ regDma) :
    writeClass c boot a v ≠ .dmaTrigger := by
  rcases writeClass_of_ne_regDma c boot v ha with e | e | e <;> rw [e]
  · nofun
  · nofun
  · exact (rangeClass_ne c a).1

/-- Only a trigger looks at the engine, and only 0xFF46 triggers (R141). -/
theorem writeByte_ignoresEngine {a : Addr} (ha : a ≠ regDma) (v : Byte) : IgnoresEngine (writeByte a v) := by
  intro s d
  cases hk : writeClass s.cfg s.bootMode a v <;> simp only [writeByte, hk]
  case dmaTrigger => exact absurd hk (writeClass_ne_dmaTrigger _ _ v ha)
  case joypad => exact writeRouted_ignoresEngine regJoyp (joypadValue v) s d
  case bootDisable => rfl
  all_goals exact writeRouted_ignoresEngine a v s d

/-- The second half of a word write finds the state of the first, which ignored the engine. -/
theorem writeWord_ignoresEngine {a : Addr} (ha : a ≠ regDma) (hnext : nextAddr a ≠ regDma) (v : Word) :
    IgnoresEngine (writeWord a v) := by
  intro s d
  have first := writeByte_ignoresEngine ha (lowByte v) s d
  have second := writeByte_ignoresEngine hnext (highByte v) (writeByte a (lowByte v) s) d
  unfold writeWord
  rw [first]
  dsimp only
  split
  · rfl
  · exact second

/-- A block write goes past the owners, and its bound is the space's (R150). -/
theorem writeBlock_ignoresEngine (a : Addr) (bytes : List Byte) : IgnoresEngine (writeBlock a bytes) := by
  intro s d
  unfold writeBlock
  split <;> rfl

end Sys2Proof.Machine

namespace Sys2Proof.Proofs

open Sys2Proof Sys2Proof.Machine

/-- Settles O35: each of the four kinds ignores the engine, a word write because neither of its halves lies on 0xFF46. -/
theorem busyWindowIsNotEnforced : Obligations.BusyWindowIsNotEnforced := by
  unfold Obligations.BusyWindowIsNotEnforced
  rintro s t d i (⟨a, rfl⟩ | ⟨a, v, rfl, ha⟩ | ⟨a, v, rfl, ha, hbelow⟩ | ⟨a, bytes, rfl⟩) hx
  · exact (readByte_ignoresEngine a).transact hx d
  · exact (writeByte_ignoresEngine ha v).transact hx d
  · have hnext : nextAddr a ≠ regDma := by unfold nextAddr; bv_omega
    exact (writeWord_ignoresEngine ha hnext v).transact hx d
  · exact (writeBlock_ignoresEngine a bytes).transact hx d

end Sys2Proof.Proofs
end

section
/-! PROOF. The DMA engine of 43_dma.md (R170 to R184): every form of a trigger runs as the trigger, which faults, or takes
the lock and moves the 160 bytes of its source; the advance and the status read. -/

namespace Sys2Proof.Machine

open Sys2Proof

/-! ### The source of a page (R171, R173) -/

/-- The shift drops no bit of a page. -/
theorem dmaSource_toNat (p : Byte) : (dmaSource p).toNat = p.toNat * 0x100 := by
  have := p.isLt
  rw [dmaSource, zext16, BitVec.toNat_shiftLeft, BitVec.toNat_setWidth, Nat.shiftLeft_eq]
  omega

theorem decodePage_eq_iff (p : Byte) (k : DmaClass) : decodePage p = k ↔ dmaClass Params.dmg (dmaSource p) = k := by
  rw [decodePage_eq_dmaClass]

theorem dmaClass_vram_contains {c : Params} {src : Addr} (h : dmaClass c src = .vram) : c.vram.contains src = true := by
  unfold dmaClass at h
  split_ifs at h
  assumption

/-! ### Triggers run the trigger -/

/-- Every form of a trigger is a byte write to 0xFF46. -/
theorem exec_trigger {s : State} {p : Byte} {i : Instr} (hs : Ready s) (hi : i.core = .writeByte regDma p) :
    exec i s = .next (dmaTrigger p s) := by
  rw [exec_core, hi, ← writeByte_dma]
  exact transact_ready hs

theorem core_of_mem_triggers {p : Byte} {i : Instr}
    (hi : i ∈ [Instr.writeByte regDma p, Instr.writeByteDmaTrigger p]) : i.core = .writeByte regDma p := by
  simp only [List.mem_cons, List.not_mem_nil, or_false] at hi
  rcases hi with rfl | rfl <;> rfl

theorem core_of_mem_sources {p : Byte} {k : DmaClass} {i : Instr}
    (hi : i ∈ [Instr.writeByte regDma p, Instr.writeByteDmaTrigger p, pageInstr p k]) :
    i.core = .writeByte regDma p := by
  simp only [List.mem_cons, List.not_mem_nil, or_false] at hi
  rcases hi with rfl | rfl | rfl
  · rfl
  · rfl
  · cases k <;> rfl

/-! ### The copy (R172, R180, R181) -/

theorem dmaFromCart_none {s : State} (hcart : s.cart = none) (buf : Cart → List Byte) (off : Nat) (p : Byte) :
    dmaFromCart buf off p s = raise (.noCartridge (.page p)) s := by
  simp only [dmaFromCart, hcart]

theorem dmaFromCart_some {s : State} {c : Cart} (hcart : s.cart = some c) (buf : Cart → List Byte) (off : Nat)
    (p : Byte) : dmaFromCart buf off p s = dmaCopy (buf c).length off (((buf c).drop off).take dmaLen) p s := by
  simp only [dmaFromCart, hcart]

theorem dmaCopy_short {len off : Nat} (h : len < off + dmaLen) (block : List Byte) (p : Byte) (s : State) :
    dmaCopy len off block p s = raise (.dmaSourceOutOfBounds p) s := if_pos h

/-- A cartridge buffer that is too short faults (R181). -/
theorem dmaFromCart_short {s : State} {c : Cart} (hcart : s.cart = some c) {buf : Cart → List Byte} {off : Nat}
    (h : (buf c).length < off + dmaLen) (p : Byte) :
    dmaFromCart buf off p s = raise (.dmaSourceOutOfBounds p) s :=
  (dmaFromCart_some hcart buf off p).trans (dmaCopy_short h _ p s)

/-- From `s` to `t` the engine took the lock and moved the 160 bytes `src 0`, `src 1`, … into OAM; nothing else
changed (R172, R180). -/
def DmaMoved (src : Nat → Byte) (s t : State) : Prop :=
  (∀ j, j < dmaLen → Mem.read t.oam j = src j) ∧
    (∀ j, dmaLen ≤ j → Mem.read t.oam j = Mem.read s.oam j) ∧
    t = { s with dma := dmaStarted, oam := t.oam, response := some .ok }

/-- A copy that passes the bounds check moves its block. -/
theorem dmaCopy_moved {len off : Nat} {block : List Byte} {src : Nat → Byte} (h : off + dmaLen ≤ len)
    (hlen : block.length = dmaLen) (hsrc : ∀ j, j < dmaLen → block.getD j 0 = src j) (p : Byte) (s : State) :
    DmaMoved src s (dmaCopy len off block p s) := by
  obtain ⟨written, others⟩ := Mem.writeList_spec s.oam 0 block
  rw [hlen] at written others
  rw [dmaCopy, if_neg h.not_gt]
  refine ⟨fun j hj => ?_, fun j hj => others j (.inr (by omega)), rfl⟩
  rw [← hsrc j hj, ← written j hj, Nat.zero_add]
  rfl

/-- A copy from a byte array moves the array's bytes from the offset on (R176, R179). -/
theorem dmaCopy_slice_moved {len off : Nat} (h : off + dmaLen ≤ len) (m : Mem) (p : Byte) (s : State) :
    DmaMoved (fun j => Mem.read m (off + j)) s (dmaCopy len off (Mem.slice m off dmaLen) p s) :=
  dmaCopy_moved h (Mem.slice_length ..) (fun _ hj => Mem.slice_getD m hj) p s

/-- A copy from a cartridge moves the buffer's bytes from the offset on (R174, R175, R177). -/
theorem dmaFromCart_moved {s : State} {c : Cart} (hcart : s.cart = some c) {buf : Cart → List Byte} {off : Nat}
    (h : off + dmaLen ≤ (buf c).length) (p : Byte) :
    DmaMoved (fun j => (buf c).getD (off + j) 0) s (dmaFromCart buf off p s) := by
  rw [dmaFromCart_some hcart]
  refine dmaCopy_moved h ?_ (fun j hj => ?_) p s
  · rw [List.length_take, List.length_drop]
    omega
  · rw [List.getD_eq_getElem?_getD, List.getD_eq_getElem?_getD, List.getElem?_take_of_lt hj, List.getElem?_drop]

/-- What a trigger moves, every form of it moves. -/
theorem sources_move {s : State} {p : Byte} {k : DmaClass} {src : Nat → Byte} (hs : Ready s)
    (h : DmaMoved src s (dmaTrigger p s)) :
    ∀ i ∈ [Instr.writeByte regDma p, Instr.writeByteDmaTrigger p, pageInstr p k],
      ∃ t, exec i s = .next t ∧ DmaMoved src s t :=
  fun _ hi => ⟨_, exec_trigger hs (core_of_mem_sources hi), h⟩

/-! ### The advance and the status read (R182 to R184) -/

theorem exec_dmaAdvance {s : State} (hs : Ready s) (n : Nat) :
    exec (.dmaAdvance n) s = .next { s with dma := dmaElapse s.cfg.dmaCycles n s.dma, response := some .ok } := by
  rw [exec, execDmaAdvance, transact_ready hs, respond]

theorem dmaElapse_active {d : Dma} (h : d.active = true) (cycles n : Nat) :
    dmaElapse cycles n d = ⟨decide (d.elapsed + n < cycles), d.elapsed + n⟩ := if_pos h

theorem dmaElapse_idle {d : Dma} (h : d.active = false) (cycles n : Nat) : dmaElapse cycles n d = d := by
  simp [dmaElapse, h]

end Sys2Proof.Machine

namespace Sys2Proof.Proofs

open Sys2Proof Sys2Proof.Machine

/-- Settles O25: the shift drops no bit (`dmaSource_toNat`), and a page is at most 0xFF. -/
theorem dmaSourceAddress : Obligations.DmaSourceAddress := by
  unfold Obligations.DmaSourceAddress
  intro p
  have := p.isLt
  exact ⟨dmaSource_toNat p, by rw [dmaSource_toNat]; omega⟩

/-- Settles O26: the three classes share one copy (`dmaFromCart_moved`), each with its own buffer and offset. -/
theorem dmaFromCartridge : Obligations.DmaFromCartridge := by
  unfold Obligations.DmaFromCartridge
  intro s p c hs hidle hcart kibr hkibr
  refine ⟨fun q => decodePage_eq_iff q _, fun hk hlen => ?_⟩
  simp only [List.mem_cons, List.not_mem_nil, or_false] at hkibr
  rcases hkibr with rfl | rfl | rfl
  · exact sources_move (k := .rom0) hs (dmaTrigger_rom0 hidle hk ▸ dmaFromCart_moved hcart hlen p)
  · exact sources_move (k := .romx) hs (dmaTrigger_romx hidle hk ▸ dmaFromCart_moved hcart hlen p)
  · exact sources_move (k := .eram) hs (dmaTrigger_eram hidle hk ▸ dmaFromCart_moved hcart hlen p)

/-- Settles O27: a page of the class has its source in the range, which bounds the offset under the default map; the copy
is one of `PPU.vram` (`dmaCopy_slice_moved`). -/
theorem dmaFromVideoRam : Obligations.DmaFromVideoRam := by
  unfold Obligations.DmaFromVideoRam
  refine ⟨fun q => decodePage_eq_iff q _, fun q hq => ?_, fun s p hs hidle hk hlen => ?_⟩
  · have inVram := dmaClass_vram_contains ((decodePage_eq_iff q _).mp hq)
    simp only [Range.contains, Params.dmg, Bool.and_eq_true, decide_eq_true_eq, BitVec.le_def, dmaSource_toNat,
      BitVec.toNat_ofNat] at inVram
    rw [dmaSource_toNat]
    omega
  · exact sources_move (k := .vram) hs (dmaTrigger_vram hidle hk ▸ dmaCopy_slice_moved hlen s.vram p s)

/-- Settles O28: the copy is one of `AS` (`dmaCopy_slice_moved`), whose last page leaves room for 160 bytes. -/
theorem dmaFromAddressSpace : Obligations.DmaFromAddressSpace := by
  unfold Obligations.DmaFromAddressSpace
  refine ⟨fun q => decodePage_eq_iff q _, fun s p hs hidle hk => ?_⟩
  have := p.isLt
  have fits : (dmaSource p).toNat + 160 ≤ 0x10000 := by rw [dmaSource_toNat]; omega
  rw [← dmaSource_toNat]
  exact sources_move (k := .store) hs (dmaTrigger_store hidle hk ▸ dmaCopy_slice_moved fits s.addressSpace p s)

/-- Settles O29: the trigger is `dmaOam`, which takes the lock alone. -/
theorem dmaFromOamMovesNothing : Obligations.DmaFromOamMovesNothing := by
  unfold Obligations.DmaFromOamMovesNothing
  refine ⟨fun q => decodePage_eq_iff q _, fun s p hs hidle hk i hi => ?_⟩
  rw [exec_trigger hs (core_of_mem_sources (k := .oam) hi), dmaTrigger_oam hidle hk]
  rfl

/-- Settles O31: the cartridge is looked for before the bounds (`dmaFromCart_none`), and the bounds are checked before
the copy (`dmaCopy_short`). -/
theorem triggerSourceFaults : Obligations.TriggerSourceFaults := by
  unfold Obligations.TriggerSourceFaults
  intro s p hs hidle
  have run {f : BusFault} (h : dmaTrigger p s = raise f s) :
      ∀ i ∈ [Instr.writeByte regDma p, Instr.writeByteDmaTrigger p], exec i s = .next (raise f s) :=
    fun i hi => h ▸ exec_trigger hs (core_of_mem_triggers hi)
  refine ⟨fun hk hcart => run (f := .noCartridge (.page p)) ?_,
    fun c hcart hshort => run (f := .dmaSourceOutOfBounds p) ?_,
    fun hk hshort => run (f := .dmaSourceOutOfBounds p) ?_⟩
  · rcases hk with hk | hk | hk
    · exact (dmaTrigger_rom0 hidle hk).trans (dmaFromCart_none hcart ..)
    · exact (dmaTrigger_romx hidle hk).trans (dmaFromCart_none hcart ..)
    · exact (dmaTrigger_eram hidle hk).trans (dmaFromCart_none hcart ..)
  · rcases hshort with ⟨hk, hlen⟩ | ⟨hk, hlen⟩ | ⟨hk, hlen⟩
    · exact (dmaTrigger_rom0 hidle hk).trans (dmaFromCart_short hcart hlen p)
    · exact (dmaTrigger_romx hidle hk).trans (dmaFromCart_short hcart hlen p)
    · exact (dmaTrigger_eram hidle hk).trans (dmaFromCart_short hcart hlen p)
  · exact (dmaTrigger_vram hidle hk).trans (dmaCopy_short hshort ..)

/-- Settles O32: by the engine's state and the threshold; the word is the encoding of the advance by 64. -/
theorem dmaAdvanceCounts : Obligations.DmaAdvanceCounts := by
  unfold Obligations.DmaAdvanceCounts
  refine ⟨decode_encode_of_core (i := .dmaAdvance 64) rfl rfl, fun s n hs => ?_⟩
  rw [exec_dmaAdvance hs]
  refine ⟨fun hactive below => ?_, fun hactive reached => ?_, fun hidle => ?_⟩
  · rw [dmaElapse_active hactive, decide_eq_true below]
  · rw [dmaElapse_active hactive, decide_eq_false reached.not_gt]
  · rw [dmaElapse_idle hidle]

/-- Settles O33: the status read is one response; the word is its encoding. -/
theorem dmaActiveReadsTheLock : Obligations.DmaActiveReadsTheLock := by
  unfold Obligations.DmaActiveReadsTheLock
  exact ⟨decode_encode_of_core (i := .dmaActive) rfl rfl, fun s hs => transact_ready hs⟩

end Sys2Proof.Proofs
end

section
/-! PROOF. The faults and refusals of 60_exceptions.md (R203 to R207): every transaction ends in one of four ways
(`Ending`), and a cartridge-backed block with an idle engine has no fault to raise. -/

namespace Sys2Proof.Machine

open Sys2Proof

/-! ### How a transaction ends (R205 to R207) -/

/-- The end of instruction `i`, begun in `s` and answered in `t`: a refusal or a fault that changes nothing else, a fault
of a word write's second half on what the first left, or a completion. -/
inductive Ending (i : Instr) (s t : State) : Prop where
  | refused (r : Reason) (ht : t = refuse r s)
  | raised (f : BusFault) (ht : t = raise f s)
  | secondHalfRaised (a : Addr) (v : Word) (f : BusFault) (hi : i = .writeWord a v) (hs : Ready s)
      (hfirst : (writeByte a (lowByte v) s).fault = none) (ht : t = raise f (writeByte a (lowByte v) s))
  | completed (hf : t.fault = none) (hr : ∀ r, t.response ≠ some (.refused r))

theorem Ending.of_ok {i : Instr} {s t : State} (h : t.fault = none ∧ t.response = some .ok) : Ending i s t :=
  .completed h.1 (by simp [h.2])

/-- A word write ends as its first byte write does if that faults, else as its second (R149, R207). -/
theorem writeWord_ending {s : State} (hs : Ready s) (a : Addr) (v : Word) :
    Ending (.writeWord a v) s (writeWord a v s) := by
  rcases writeWord_cases a v s with ⟨faulted, e⟩ | ⟨unfaulted, e⟩ <;> rw [e]
  · rcases writeByte_raises_or_ok a (lowByte v) hs.1 with ⟨f, h⟩ | ⟨unfaulted, -⟩
    · exact .raised f h
    · exact absurd unfaulted faulted
  · rcases writeByte_raises_or_ok (nextAddr a) (highByte v) unfaulted with ⟨f, h⟩ | h
    · exact .secondHalfRaised a v f rfl hs unfaulted h
    · exact .of_ok h

theorem Effect.ending {i : Instr} {s t : State} (he : Effect i s t) (hs : Ready s) : Ending i s t := by
  have hf := hs.1
  cases he with
  | readByte a =>
    rcases readByte_cases a s with ⟨v, e⟩ | ⟨-, e⟩
    · exact .completed (by simp [e, hf]) (by simp [e])
    · exact .raised _ e
  | writeByte a v =>
    rcases writeByte_raises_or_ok a v hf with ⟨f, e⟩ | h
    · exact .raised f e
    · exact .of_ok h
  | writeWord a v => exact writeWord_ending hs a v
  | writeBlock a bytes =>
    rcases writeBlock_cases a bytes s with ⟨-, e⟩ | ⟨-, e⟩
    · exact .raised _ e
    · exact .of_ok (by simp [e, hf])
  | dmaActive => exact .completed hf (by simp)
  | dmaAdvance n => exact .of_ok ⟨hf, rfl⟩

theorem core_eq_writeWord {i : Instr} {a : Addr} {v : Word} (h : i.core = .writeWord a v) : i = .writeWord a v := by
  cases i with
  | writeWord a' v' => exact h
  | _ => exact Instr.noConfusion h

/-- Every instruction that answers a next state ends in one of the four ways. -/
theorem exec_ending {i : Instr} {s t : State} (hx : exec i s = .next t) : Ending i s t := by
  have kind : Ending i.core s t := by
    rw [exec_core] at hx
    obtain ⟨-, ⟨r, ht⟩ | ⟨hs, he⟩ | ⟨-, ⟨-, rfl⟩ | ⟨image, -, rfl⟩⟩⟩ := exec_cases i.core_core hx
    · exact .refused r ht
    · exact he.ending hs
    · exact .of_ok ⟨rfl, rfl⟩
    · rcases buildCart_cases image s with ⟨f, e⟩ | ⟨c, e⟩
      · exact .raised f e
      · exact .of_ok (by simp [e])
  cases kind with
  | refused r ht => exact .refused r ht
  | raised f ht => exact .raised f ht
  | secondHalfRaised a v f hi hs hfirst ht => exact .secondHalfRaised a v f (core_eq_writeWord hi) hs hfirst ht
  | completed hf hr => exact .completed hf hr

/-! ### A faulted block (R206) -/

/-- Each of the three guards looks at the fault register first. -/
theorem exec_stuck {s : State} (hf : s.fault ≠ none) (i : Instr) : exec i s = .fault .stuck := by
  cases hcon : isConstruction i with
  | true =>
    obtain ⟨k, run⟩ := exec_eq_construct hcon
    exact (run s).trans (construct_stuck hf)
  | false =>
    cases hres : isReserved i with
    | true =>
      cases i with
      | reserved op addr data att => exact unknown_stuck hf
      | _ => exact absurd hres Bool.noConfusion
    | false =>
      obtain ⟨k, run⟩ := exec_eq_transact hcon hres
      exact (run s).trans (transact_stuck hf)

theorem fault_none_of_exec {i : Instr} {s t : State} (hx : exec i s = .next t) : s.fault = none := by
  by_contra hf
  cases hx.symm.trans (exec_stuck hf i)

theorem step_stuck {s : State} (hf : s.fault ≠ none) : step s = .fault .stuck := by
  simp [step, fetch, Option.isSome_iff_ne_none.mpr hf]

/-- A fault in the answer was raised on the state before, or on what the first half of a word write left (R207). -/
theorem exec_raised {i : Instr} {s t : State} (hx : exec i s = .next t) (hfault : t.fault ≠ none) :
    ∃ f, t = raise f s ∨
      ∃ a v, i = .writeWord a v ∧ Ready s ∧ (writeByte a (lowByte v) s).fault = none ∧
        t = raise f (writeByte a (lowByte v) s) := by
  cases exec_ending hx with
  | refused r ht => exact absurd (by rw [ht, refuse_fault, fault_none_of_exec hx]) hfault
  | raised f ht => exact ⟨f, .inl ht⟩
  | secondHalfRaised a v f hi hs hfirst ht => exact ⟨f, .inr ⟨a, v, hi, hs, hfirst, ht⟩⟩
  | completed hf _ => exact absurd hf hfault

/-! ### The refusal mark (R205) -/

/-- A refusal sets the mark, and what runs keeps it. -/
theorem exec_keeps_mark {i : Instr} {s t : State} (hi : i.core = i) (hx : exec i s = .next t)
    (hmark : s.refusalMark = true) : t.refusalMark = true := by
  obtain ⟨-, ⟨r, rfl⟩ | ⟨-, he⟩ | ⟨-, ⟨-, rfl⟩ | ⟨image, -, rfl⟩⟩⟩ := exec_cases hi hx
  · rfl
  · obtain ⟨-, keeps, -⟩ := he.keeps
    exact keeps.trans hmark
  · exact hmark
  · rcases buildCart_cases image s with ⟨f, e⟩ | ⟨c, e⟩ <;> rw [e] <;> exact hmark

/-! ### The engine's lock (R203) -/

theorem dmaTrigger_busy {s : State} (h : s.dma.active = true) (p : Byte) :
    dmaTrigger p s = raise (.dmaAlreadyRunning p) s := if_pos h

theorem IgnoresEngine.keeps_dma {k : State → State} (hk : IgnoresEngine k) (s : State) : (k s).dma = s.dma :=
  (congrArg State.dma (hk s s.dma)).trans rfl

/-! ### A cartridge-backed block (R204) -/

/-- A block that holds a cartridge raises no fault in the read path (R122). -/
theorem readByte_fault_of_cart {s : State} (hcart : s.cart ≠ none) (a : Addr) : (readByte a s).fault = s.fault := by
  rcases readByte_cases a s with ⟨v, e⟩ | ⟨hnone, -⟩
  · rw [e, respond_fault]
  · exact absurd hnone hcart

/-- Nor in steps 4 and 5 of the write path, which leave it a cartridge (R147). -/
theorem writeRouted_of_cart {s : State} (hcart : s.cart ≠ none) (a : Addr) (v : Byte) :
    (writeRouted a v s).fault = s.fault ∧ (writeRouted a v s).cart ≠ none := by
  rcases writeRouted_cases a v s with ⟨-, e⟩ | ⟨-, e⟩ | ⟨-, e⟩ | ⟨hnone, -⟩ | ⟨c, -, e⟩ | e
  · simp [e, hcart]
  · simp [e, hcart]
  · simp [e, hcart]
  · exact absurd hnone hcart
  · simp [e]
  · simp [e, hcart]

/-- Off 0xFF46, a byte write is the latch or goes through steps 4 and 5. -/
theorem writeByte_of_cart {s : State} (hcart : s.cart ≠ none) {a : Addr} (ha : a ≠ regDma) (v : Byte) :
    (writeByte a v s).fault = s.fault ∧ (writeByte a v s).cart ≠ none := by
  rcases writeByte_cases a v s with ⟨hdma, -⟩ | ⟨-, e⟩ | ⟨-, -, -, e⟩ | ⟨-, -, e⟩
  · exact absurd hdma ha
  · rw [e]; exact writeRouted_of_cart hcart a (joypadValue v)
  · rw [e]; exact ⟨rfl, hcart⟩
  · rw [e]; exact writeRouted_of_cart hcart a v

/-- A word write off 0xFF46 finds the cartridge in both its halves. -/
theorem writeWord_fault_of_cart {s : State} (hcart : s.cart ≠ none) {a : Addr} (ha : a ≠ regDma)
    (hnext : nextAddr a ≠ regDma) (v : Word) : (writeWord a v s).fault = s.fault := by
  obtain ⟨first, hcart'⟩ := writeByte_of_cart hcart ha (lowByte v)
  rcases writeWord_cases a v s with ⟨-, e⟩ | ⟨-, e⟩ <;> rw [e]
  · exact first
  · exact (writeByte_of_cart hcart' hnext (highByte v)).1.trans first

theorem DmaMoved.fault_eq {src : Nat → Byte} {s t : State} (h : DmaMoved src s t) : t.fault = s.fault := by
  obtain ⟨-, -, frame⟩ := h
  rw [frame]

/-- With an idle engine and long enough buffers, every page's copy passes its bounds check (R181). -/
theorem dmaTrigger_fault_of_long {s : State} {c : Cart} (hcart : s.cart = some c) (hlong : BuffersLongEnough s.cfg c)
    (hidle : s.dma.active = false) (p : Byte) : (dmaTrigger p s).fault = s.fault := by
  obtain ⟨rom0, romx, eram, vram⟩ := hlong p
  cases hk : dmaClass s.cfg (dmaSource p) with
  | rom0 => exact dmaTrigger_rom0 hidle hk ▸ (dmaFromCart_moved hcart (rom0 hk) p).fault_eq
  | romx => exact dmaTrigger_romx hidle hk ▸ (dmaFromCart_moved hcart (romx hk) p).fault_eq
  | eram => exact dmaTrigger_eram hidle hk ▸ (dmaFromCart_moved hcart (eram hk) p).fault_eq
  | vram => exact dmaTrigger_vram hidle hk ▸ (dmaCopy_slice_moved (vram hk) s.vram p s).fault_eq
  | oam => rw [dmaTrigger_oam hidle hk, dmaOam_fault]
  | store =>
    obtain ⟨-, below⟩ := Proofs.dmaSourceAddress p
    have fits : (dmaSource p).toNat + dmaLen ≤ asSize := Nat.add_le_add below (by decide : 160 ≤ 0x100)
    exact dmaTrigger_store hidle hk ▸ (dmaCopy_slice_moved fits s.addressSpace p s).fault_eq

end Sys2Proof.Machine

namespace Sys2Proof.Proofs

open Sys2Proof Sys2Proof.Machine

/-- Settles O36: a fault in the answer was raised (`exec_raised`), and `raise` writes register and response together;
every guard looks at the register first (`exec_stuck`, `step_stuck`). -/
theorem faultIsStickyAndFatal : Obligations.FaultIsStickyAndFatal := by
  unfold Obligations.FaultIsStickyAndFatal
  refine ⟨fun s t i hx hfault => ?_, fun s i hf => exec_stuck hf i, fun s hf => step_stuck hf⟩
  obtain ⟨f, rfl | ⟨a, v, -, -, -, rfl⟩⟩ := exec_raised hx hfault
  · exact ⟨f, rfl, rfl⟩
  · exact ⟨f, rfl, rfl⟩

/-- Settles O37: `raise` changes the register and the response only, on one of the two states `exec_raised` names. -/
theorem faultChangesNothingElse : Obligations.FaultChangesNothingElse := by
  unfold Obligations.FaultChangesNothingElse
  intro s t i hx hfault
  obtain ⟨f, rfl | ⟨a, v, hi, hs, hfirst, rfl⟩⟩ := exec_raised hx hfault
  · exact .inl rfl
  · exact .inr ⟨a, v, _, hi, transact_ready hs, hfirst, rfl⟩

/-- Settles O38: by the four endings, of which only a refusal answers REFUSED; by the three kinds of step, none of which
clears the mark (`exec_keeps_mark`). -/
theorem refusalChangesOnlyTheMark : Obligations.RefusalChangesOnlyTheMark := by
  unfold Obligations.RefusalChangesOnlyTheMark
  refine ⟨fun s t i r hx hr => ?_, fun s t hs hmark => ?_⟩
  · cases exec_ending hx with
    | refused r' ht =>
      subst ht
      cases hr
      rfl
    | raised f ht => simp [ht] at hr
    | secondHalfRaised a v f _ _ _ ht => simp [ht] at hr
    | completed _ hne => exact absurd hr (hne r)
  · obtain ⟨-, ⟨e, rest, -, rfl⟩ | ⟨r, rest, reason, -, -, rfl⟩ | ⟨r, rest, i, -, -, hi, hx⟩⟩ := step_cases hs
    · exact (congrArg State.refusalMark (agentStep_frame e { s with inputs := rest })).trans hmark
    · rfl
    · exact exec_keeps_mark hi hx hmark

/-- Settles O39: kind by kind; the cartridge is there, a trigger finds its 160 bytes (`dmaTrigger_fault_of_long`), a word
write's halves lie off 0xFF46, and a block write stays inside the space. -/
theorem wellConfiguredBlockNeverFaults : Obligations.WellConfiguredBlockNeverFaults := by
  unfold Obligations.WellConfiguredBlockNeverFaults
  intro s c i hs _ hcart hlong hidle hi
  have backed : s.cart ≠ none := hcart ▸ nofun
  have ends {k : State → State} (he : Effect i s (k s)) (run : exec i s = transact k s) (hf : (k s).fault = s.fault) :
      ∃ t, exec i s = .next t ∧ t.fault = none ∧ t.refusalMark = s.refusalMark := by
    obtain ⟨-, keepsMark, -⟩ := he.keeps
    exact ⟨k s, run.trans (transact_ready hs), hf.trans hs.1, keepsMark⟩
  rcases hi with ⟨a, rfl⟩ | ⟨a, v, rfl⟩ | rfl | ⟨n, rfl⟩ | ⟨a, v, rfl, ha, hbelow⟩ | ⟨a, bytes, rfl, fits⟩
  · exact ends (.readByte a s) rfl (readByte_fault_of_cart backed a)
  · refine ends (.writeByte a v s) rfl ?_
    by_cases ha : a = regDma
    · rw [ha, writeByte_dma]
      exact dmaTrigger_fault_of_long hcart hlong hidle v
    · exact (writeByte_of_cart backed ha v).1
  · exact ends (k := fun s => respond (.active s.dma.active) s) (.dmaActive s) rfl rfl
  · exact ends (k := fun s => respond .ok { s with dma := dmaElapse s.cfg.dmaCycles n s.dma }) (.dmaAdvance n s) rfl rfl
  · have hnext : nextAddr a ≠ regDma := by unfold nextAddr; bv_omega
    exact ends (.writeWord a v s) rfl (writeWord_fault_of_cart backed ha hnext v)
  · refine ends (.writeBlock a bytes s) rfl ?_
    rcases writeBlock_cases a bytes s with ⟨overrun, -⟩ | ⟨-, e⟩
    · exact absurd fits overrun.not_ge
    · rw [e, respond_fault]

/-- Settles O30: a busy engine faults first of all (`dmaTrigger_busy`), also in the second half of a word write, whose
first half off 0xFF46 kept the lock; a block write goes past the engine. -/
theorem triggerWhileActiveFaults : Obligations.TriggerWhileActiveFaults := by
  unfold Obligations.TriggerWhileActiveFaults
  refine ⟨fun s p hs hbusy i hi => ?_, fun s v hs hbusy => ⟨?_, fun t hx hf => ?_⟩, fun s t a bytes hs hx => ?_⟩
  · have hcore : i.core = .writeByte regDma p := by
      revert i
      simp [Instr.core]
    rw [exec_trigger hs hcore, dmaTrigger_busy hbusy]
    rfl
  · have first : writeByte regDma (lowByte v) s = raise (.dmaAlreadyRunning (lowByte v)) s :=
      (writeByte_dma _ s).trans (dmaTrigger_busy hbusy _)
    have run : exec (.writeWord regDma v) s = .next (writeWord regDma v s) := transact_ready hs
    rcases writeWord_cases regDma v s with ⟨-, e⟩ | ⟨unfaulted, -⟩
    · rw [run, e, first]
      rfl
    · simp [first] at unfaulted
  · obtain rfl : writeByte 0xFF45#16 (lowByte v) s = t := Host.Outcome.next.inj ((transact_ready hs).symm.trans hx)
    have lock := (writeByte_ignoresEngine (a := 0xFF45#16) (by decide) (lowByte v)).keeps_dma s
    have run : exec (.writeWord 0xFF45#16 v) s = .next (writeWord 0xFF45#16 v s) := transact_ready hs
    have second : nextAddr 0xFF45#16 = regDma := by decide
    rcases writeWord_cases 0xFF45#16 v s with ⟨faulted, -⟩ | ⟨-, e⟩
    · exact absurd hf faulted
    · rw [run, e, second, writeByte_dma, dmaTrigger_busy (lock ▸ hbusy)]
      rfl
  · obtain rfl : writeBlock a bytes s = t := Host.Outcome.next.inj ((transact_ready hs).symm.trans hx)
    refine ⟨?_, (writeBlock_ignoresEngine a bytes).keeps_dma s⟩
    rcases writeBlock_cases a bytes s with ⟨-, e⟩ | ⟨-, e⟩
    · simp [e, BusFault.code]
    · simp [e, hs.1]

end Sys2Proof.Proofs
end
